-- ==== Sys2Proof/Word.lean ====
section
/-! DEFINITION. The word types of the block: the input unit and its fields (00_scope R6, R7; 30_encoding R41 to R45). -/

namespace Sys2Proof

/-- The input unit: one byte of 8 bits, bit 7 most significant (R6 `BYTE_W`, R7, R41). -/
abbrev Byte := BitVec 8

/-- A channel number, the low nibble of a format C byte (R43, R47 `ch`). -/
abbrev Channel := BitVec 4

/-- A 3-bit selector: `op` of a format C byte, `sub` of a format S or R byte (R43 to R45, R47). -/
abbrev Selector := BitVec 3

end Sys2Proof
end

