-- ==== Sys2Proof/Syntax.lean ====
section
/-! DEFINITION. The "instructions": the 24 byte classes of 30_encoding R50, one constructor per row of spec/opcode_table.json. -/

namespace Sys2Proof

/-- The byte formats of R41 to R46: D data, C channel status, S system-common status, R realtime status. -/
inductive Format where
  | d
  | c
  | s
  | r
deriving DecidableEq, Repr

/-- An input byte, classified. A data byte keeps the whole byte (R47: "The stored parameter is the whole byte"),
a channel status byte its channel, the others carry nothing. -/
inductive Instr where
  | data (b : Byte)              -- DATA, R68
  | noteOff (ch : Channel)       -- NOTE_OFF, R78
  | noteOn (ch : Channel)        -- NOTE_ON, R79
  | polyAftertouch (ch : Channel) -- POLY_AFTERTOUCH, R80
  | controlChange (ch : Channel) -- CONTROL_CHANGE, R81
  | programChange (ch : Channel) -- PROGRAM_CHANGE, R82
  | channelPressure (ch : Channel) -- CHANNEL_PRESSURE, R83
  | pitchBend (ch : Channel)     -- PITCH_BEND, R84
  | sysex                        -- SYSEX, R86
  | mtcQuarterFrame              -- MTC_QUARTER_FRAME, R87
  | songPosition                 -- SONG_POSITION, R88
  | songSelect                   -- SONG_SELECT, R89
  | undefF4                      -- UNDEF_F4, R90
  | undefF5                      -- UNDEF_F5, R91
  | tuneRequest                  -- TUNE_REQUEST, R92
  | endex                        -- ENDEX, R93
  | rtF8                         -- RT_F8, R95
  | rtF9                         -- RT_F9, R96
  | rtFA                         -- RT_FA, R97
  | rtFB                         -- RT_FB, R98
  | rtFC                         -- RT_FC, R99
  | rtFD                         -- RT_FD, R100
  | rtFE                         -- RT_FE, R101
  | rtFF                         -- RT_FF, R102
deriving DecidableEq, Repr

/-- The format of each class, the column of that name in R50. -/
def Instr.format : Instr → Format
  | .data _ => .d
  | .noteOff _ => .c
  | .noteOn _ => .c
  | .polyAftertouch _ => .c
  | .controlChange _ => .c
  | .programChange _ => .c
  | .channelPressure _ => .c
  | .pitchBend _ => .c
  | .sysex => .s
  | .mtcQuarterFrame => .s
  | .songPosition => .s
  | .songSelect => .s
  | .undefF4 => .s
  | .undefF5 => .s
  | .tuneRequest => .s
  | .endex => .s
  | .rtF8 => .r
  | .rtF9 => .r
  | .rtFA => .r
  | .rtFB => .r
  | .rtFC => .r
  | .rtFD => .r
  | .rtFE => .r
  | .rtFF => .r

end Sys2Proof
end

