-- ==== Sys2Proof/WellFormed.lean ====
section
/-! DEFINITION. Which terms of `Instr` stand for a byte. The one check: the operand of `DATA` is a byte with bit 7 clear
(41 R68: "`b` with bit 7 clear, 0x00 to 0x7F"). A channel is 4 bits by its type; the other classes have no operand. -/

namespace Sys2Proof

/-- The operand check, class by class. -/
def Instr.wellFormed : Instr → Bool
  | .data b => !b.msb
  | .noteOff _ => true
  | .noteOn _ => true
  | .polyAftertouch _ => true
  | .controlChange _ => true
  | .programChange _ => true
  | .channelPressure _ => true
  | .pitchBend _ => true
  | .sysex => true
  | .mtcQuarterFrame => true
  | .songPosition => true
  | .songSelect => true
  | .undefF4 => true
  | .undefF5 => true
  | .tuneRequest => true
  | .endex => true
  | .rtF8 => true
  | .rtF9 => true
  | .rtFA => true
  | .rtFB => true
  | .rtFC => true
  | .rtFD => true
  | .rtFE => true
  | .rtFF => true

end Sys2Proof
end

