-- ==== Sys2Proof/Decode.lean ====
section
/-! DEFINITION. The decoder from bytes to classes, the encoder back, and the opcode table of 30_encoding R50.
Every instruction is one byte and every byte is one (R41), so `decodeByte` is total; `decode` refuses only a missing byte. -/

namespace Sys2Proof

/-! ## Fields (30_encoding R47) -/

/-- `op`: bits 6 to 4. -/
def opField (b : Byte) : Selector := b.extractLsb' 4 3

/-- `ch`: bits 3 to 0. -/
def chField (b : Byte) : Channel := b.extractLsb' 0 4

/-- `sub`: bits 2 to 0. -/
def subField (b : Byte) : Selector := b.extractLsb' 0 3

/-- The format of a byte, tested in the order of R46. -/
def formatOf (b : Byte) : Format :=
  if b &&& 0xF8#8 = 0xF8#8 then .r
  else if b &&& 0x80#8 = 0x80#8 then
    if b &&& 0xF8#8 = 0xF0#8 then .s else .c
  else .d

/-! ## Decoding -/

/-- Format S, class by `sub` (R50). -/
def systemCommonOf (sub : Selector) : Instr :=
  match (sub.toFin : Fin 8) with
  | 0 => .sysex
  | 1 => .mtcQuarterFrame
  | 2 => .songPosition
  | 3 => .songSelect
  | 4 => .undefF4
  | 5 => .undefF5
  | 6 => .tuneRequest
  | 7 => .endex

/-- Format R, class by `sub` (R50). -/
def realtimeOf (sub : Selector) : Instr :=
  match (sub.toFin : Fin 8) with
  | 0 => .rtF8
  | 1 => .rtF9
  | 2 => .rtFA
  | 3 => .rtFB
  | 4 => .rtFC
  | 5 => .rtFD
  | 6 => .rtFE
  | 7 => .rtFF

/-- A byte with bit 7 set, by `op`: 0 to 6 are the channel classes (format C); 7 is no channel class and bit 3
tells format S from format R (R43, R46; 90_conflicts C3). -/
def statusOf (b : Byte) : Instr :=
  match ((opField b).toFin : Fin 8) with
  | 0 => .noteOff (chField b)
  | 1 => .noteOn (chField b)
  | 2 => .polyAftertouch (chField b)
  | 3 => .controlChange (chField b)
  | 4 => .programChange (chField b)
  | 5 => .channelPressure (chField b)
  | 6 => .pitchBend (chField b)
  | 7 => if b.getLsbD 3 then realtimeOf (subField b) else systemCommonOf (subField b)

/-- The class of a byte (R46, R50). -/
def decodeByte (b : Byte) : Instr :=
  if b.msb then statusOf b else .data b

/-- Why bytes are not an instruction. -/
inductive DecodeRefusal where
  /-- There is no byte to read. No byte itself is ever refused (R41, R51). -/
  | noByte
deriving DecidableEq, Repr

/-- Reads one instruction off a byte sequence and gives back the rest. -/
def decode : List Byte → Except DecodeRefusal (Instr × List Byte)
  | [] => .error .noByte
  | b :: rest => .ok (decodeByte b, rest)

/-! ## Encoding -/

/-- A format C byte: `1`, `op`, `ch` (R43). -/
def channelByte (op : Selector) (ch : Channel) : Byte := 1#1 ++ op ++ ch

/-- A format S byte: `11110`, `sub` (R44). -/
def systemCommonByte (sub : Selector) : Byte := 0b11110#5 ++ sub

/-- A format R byte: `11111`, `sub` (R45). -/
def realtimeByte (sub : Selector) : Byte := 0b11111#5 ++ sub

/-- The byte of each class (R50). -/
def encodeByte : Instr → Byte
  | .data b => b
  | .noteOff ch => channelByte 0 ch
  | .noteOn ch => channelByte 1 ch
  | .polyAftertouch ch => channelByte 2 ch
  | .controlChange ch => channelByte 3 ch
  | .programChange ch => channelByte 4 ch
  | .channelPressure ch => channelByte 5 ch
  | .pitchBend ch => channelByte 6 ch
  | .sysex => systemCommonByte 0
  | .mtcQuarterFrame => systemCommonByte 1
  | .songPosition => systemCommonByte 2
  | .songSelect => systemCommonByte 3
  | .undefF4 => systemCommonByte 4
  | .undefF5 => systemCommonByte 5
  | .tuneRequest => systemCommonByte 6
  | .endex => systemCommonByte 7
  | .rtF8 => realtimeByte 0
  | .rtF9 => realtimeByte 1
  | .rtFA => realtimeByte 2
  | .rtFB => realtimeByte 3
  | .rtFC => realtimeByte 4
  | .rtFD => realtimeByte 5
  | .rtFE => realtimeByte 6
  | .rtFF => realtimeByte 7

/-- The bytes of an instruction: always one (R41). -/
def encode (i : Instr) : List Byte := [encodeByte i]

/-! ## The opcode table (R50; spec/opcode_table.json) -/

/-- A row of the opcode table: a byte belongs to the class when its bits under `mask` are `pattern`. -/
structure OpcodeRow where
  mnemonic : String
  pattern : Byte
  mask : Byte
  format : Format
deriving DecidableEq, Repr

/-- A byte has the row's pattern. -/
def rowMatches (row : OpcodeRow) (b : Byte) : Bool := b &&& row.mask == row.pattern

/-- The 24 rows, in the table's order. -/
def opcodeTable : List OpcodeRow :=
  [ ⟨"DATA", 0x00, 0x80, .d⟩,
    ⟨"NOTE_OFF", 0x80, 0xF0, .c⟩,
    ⟨"NOTE_ON", 0x90, 0xF0, .c⟩,
    ⟨"POLY_AFTERTOUCH", 0xA0, 0xF0, .c⟩,
    ⟨"CONTROL_CHANGE", 0xB0, 0xF0, .c⟩,
    ⟨"PROGRAM_CHANGE", 0xC0, 0xF0, .c⟩,
    ⟨"CHANNEL_PRESSURE", 0xD0, 0xF0, .c⟩,
    ⟨"PITCH_BEND", 0xE0, 0xF0, .c⟩ ] ++
  [ ⟨"SYSEX", 0xF0, 0xFF, .s⟩,
    ⟨"MTC_QUARTER_FRAME", 0xF1, 0xFF, .s⟩,
    ⟨"SONG_POSITION", 0xF2, 0xFF, .s⟩,
    ⟨"SONG_SELECT", 0xF3, 0xFF, .s⟩,
    ⟨"UNDEF_F4", 0xF4, 0xFF, .s⟩,
    ⟨"UNDEF_F5", 0xF5, 0xFF, .s⟩,
    ⟨"TUNE_REQUEST", 0xF6, 0xFF, .s⟩,
    ⟨"ENDEX", 0xF7, 0xFF, .s⟩ ] ++
  [ ⟨"RT_F8", 0xF8, 0xFF, .r⟩,
    ⟨"RT_F9", 0xF9, 0xFF, .r⟩,
    ⟨"RT_FA", 0xFA, 0xFF, .r⟩,
    ⟨"RT_FB", 0xFB, 0xFF, .r⟩,
    ⟨"RT_FC", 0xFC, 0xFF, .r⟩,
    ⟨"RT_FD", 0xFD, 0xFF, .r⟩,
    ⟨"RT_FE", 0xFE, 0xFF, .r⟩,
    ⟨"RT_FF", 0xFF, 0xFF, .r⟩ ]

/-- The place of a class in the table. -/
def rowOf : Instr → Nat
  | .data _ => 0
  | .noteOff _ => 1
  | .noteOn _ => 2
  | .polyAftertouch _ => 3
  | .controlChange _ => 4
  | .programChange _ => 5
  | .channelPressure _ => 6
  | .pitchBend _ => 7
  | .sysex => 8
  | .mtcQuarterFrame => 9
  | .songPosition => 10
  | .songSelect => 11
  | .undefF4 => 12
  | .undefF5 => 13
  | .tuneRequest => 14
  | .endex => 15
  | .rtF8 => 16
  | .rtF9 => 17
  | .rtFA => 18
  | .rtFB => 19
  | .rtFC => 20
  | .rtFD => 21
  | .rtFE => 22
  | .rtFF => 23

/-! ## The host's numbering of an instruction's bits -/

/-- The byte at the front of an instruction whose low `nbits` bits are those of `w` and whose other bits are 0. An
instruction is one byte, so this is all of it. -/
def tableByte (nbits w : Nat) : Byte := BitVec.ofNat 8 (w % 2 ^ nbits)

/-- What the decoder reads from an instruction word numbered as spec/opcode_table.json numbers it. -/
def decodeTableWord (nbits w : Nat) : Option Instr :=
  match decode [tableByte nbits w] with
  | .ok (i, _) => some i
  | .error _ => none

end Sys2Proof
end

