-- ==== Sys2Proof/Machine/State.lean ====
section
/-! DEFINITION. The state of one parser instance and its ports, as plain data (10_state; 92_eei_decisions D1, D2, D4). -/

namespace Sys2Proof.Machine

/-- `pendingCount`, a "signed integer in {-1, 0, 1, 2}" (R15), kept as a four-constructor type as R27 recommends. -/
inductive PendingCount where
  /-- -1, indefinite hold: a SYSEX body is in progress. -/
  | hold
  /-- 0, nothing pending. -/
  | zero
  /-- 1 data byte still required. -/
  | one
  /-- 2 data bytes still required. -/
  | two
deriving DecidableEq, Repr

/-- The three state items of R13 (the two slots of `data` named), and nothing else. -/
structure Parser where
  /-- R14: the last non-realtime message-start byte, 0 when none since reset. -/
  activeMessage : Byte
  /-- R15: how many parameter bytes the message still needs. -/
  pendingCount : PendingCount
  /-- R16: `data[0]`. -/
  data0 : Byte
  /-- R16: `data[1]`. -/
  data1 : Byte
deriving DecidableEq, Repr

/-- What one step puts out (R9, R18; notation of R10). -/
inductive Output where
  /-- "none": the step performed no `Accept` (`Reset` or `Idle`). -/
  | quiet
  /-- `None`, "no message yet". -/
  | noMessage
  /-- `Some(c)`, the completed message code. -/
  | message (c : Byte)
deriving DecidableEq, Repr

/-- One sample of the input ports of D1. -/
structure Sample where
  /-- Port `reset`. -/
  reset : Bool
  /-- Port `in_valid`. -/
  inValid : Bool
  /-- Port `in_byte`. -/
  inByte : Byte
deriving DecidableEq, Repr

/-- The three events of R9. -/
inductive Event where
  | accept (b : Byte)
  | reset
  | idle
deriving DecidableEq, Repr

/-- The set of exceptions is empty (R113), so no step ever faults. -/
inductive Fault where
deriving DecidableEq, Repr

/-- Why a step has no outcome. -/
inductive Refusal where
  /-- Raised by `exec` for an instruction without a meaning. No arm does: every class has its meaning. Safe. -/
  | notModelled (mnemonic : String)
  /-- Raised by the completion step (and by nothing else) when `epc(activeMessage)` is outside the domain of `epc`:
  "`refuse`: no value; the function is partial" (93 U2, U8; 92 D9; R59). Met only outside the invariant R19. Safe. -/
  | epcOutsideDomain
deriving DecidableEq, Repr

/-- The machine: the parser, what its last step put out, and what the caller will present at the input ports. -/
structure State where
  /-- The parser's whole state (R13). -/
  parser : Parser
  /-- The output of the step just performed. The MODEL's own field: no transition reads it (log entry 2). -/
  output : Output
  /-- The port samples of the steps to come, next one first; when it is empty the caller presents nothing. The MODEL's
  own field: the caller's choices of R11 (log entry 1). -/
  inputs : List Sample
deriving DecidableEq, Repr

/-- The reset state of R22: all four registers 0. -/
def Parser.reset : Parser :=
  { activeMessage := 0, pendingCount := .zero, data0 := 0, data1 := 0 }

/-- The machine right after reset: R22, R128 (the reset step puts out "none"), and no input yet presented. -/
def State.reset : State :=
  { parser := Parser.reset, output := .quiet, inputs := [] }

end Sys2Proof.Machine
end

