-- ==== Sys2Proof/Machine/Classifier.lean ====
section
/-! DEFINITION. The Message Classifier (40_classifier): pure functions of one byte. -/

namespace Sys2Proof.Machine

/-- R55: the high bit is set. True of realtime bytes too (90_conflicts C6). -/
def isMessageStart (b : Byte) : Bool := b &&& 0x80 == 0x80

/-- R56: the top 5 bits are `11111`. -/
def isRealtime (b : Byte) : Bool := b &&& 0xF8 == 0xF8

/-- R57: the top 5 bits are `11110`. -/
def isSystemCommon (b : Byte) : Bool := b &&& 0xF8 == 0xF0

/-- R58: the message-start bytes that are neither of the two. -/
def isChannel (b : Byte) : Bool := isMessageStart b && !isSystemCommon b && !isRealtime b

/-- R60, indexed by `op` 0 to 6. There is no slot 7: it "is never read". The count of channel pressure (`op` 5) is 1
(90_conflicts C4). -/
def chTable : List PendingCount := [.two, .two, .two, .two, .one, .one, .two]

/-- R61, indexed by `sub` 0 to 7. -/
def scTable : List PendingCount := [.hold, .one, .two, .one, .zero, .zero, .zero, .zero]

/-- R59, MP's `expectedParameterCount`: defined on non-realtime message-start bytes only; outside, it has no value. -/
def epc (b : Byte) : Option PendingCount :=
  if isSystemCommon b then scTable[(subField b).toNat]?
  else if isChannel b then chTable[(opField b).toNat]?
  else none

/-- How long a message is on the wire (R48). -/
inductive MessageLength where
  | bytes (n : Nat)
  | indefinite
deriving DecidableEq, Repr

/-- R48: the total length of a message, told from its status byte alone. A data byte starts no message. -/
def messageLength (b : Byte) : Option MessageLength :=
  if isRealtime b then some (.bytes 1)
  else match epc b with
    | some .hold => some .indefinite
    | some .zero => some (.bytes 1)
    | some .one => some (.bytes 2)
    | some .two => some (.bytes 3)
    | none => none

end Sys2Proof.Machine
end

