-- ==== Sys2Proof/Machine/Operands.lean ====
section
/-! DEFINITION. The operand forms: `pendingCount` as a number, as its storage code and as the index of the slot a data byte
goes to (10_state R15, R27; 41 R68, R75), and the parameter slots (R16). -/

namespace Sys2Proof.Machine

/-- The integer `pendingCount` stands for (R15). -/
def PendingCount.toInt : PendingCount → Int
  | .hold => -1
  | .zero => 0
  | .one => 1
  | .two => 2

/-- The 2-bit storage code: the value modulo 4 (R27, 92 D5). -/
def PendingCount.code : PendingCount → BitVec 2
  | .hold => 0b11
  | .zero => 0b00
  | .one => 0b01
  | .two => 0b10

/-- Reads a storage code back; "All four codes are used, so there is no illegal code" (R27). -/
def PendingCount.ofCode (c : BitVec 2) : PendingCount :=
  match (c.toFin : Fin 4) with
  | 0 => .zero
  | 1 => .one
  | 2 => .two
  | 3 => .hold

/-- When `pendingCount > 0`: the slot `2 - pendingCount`, from the value before the decrement, and the decremented count.
No slot when it is 0 or -1 (R68, R75 a to c). -/
def PendingCount.take? : PendingCount → Option (Fin 2 × PendingCount)
  | .hold => none
  | .zero => none
  | .one => some (1, .zero)
  | .two => some (0, .one)

/-- `data[i] <- b` (R16). -/
def Parser.setData (p : Parser) (i : Fin 2) (b : Byte) : Parser :=
  match i with
  | 0 => { p with data0 := b }
  | 1 => { p with data1 := b }

/-- `data[i]`, read (R16). -/
def Parser.getData (p : Parser) (i : Fin 2) : Byte :=
  match i with
  | 0 => p.data0
  | 1 => p.data1

end Sys2Proof.Machine
end

