-- ==== Sys2Proof/Machine/Ops.lean ====
section
/-! DEFINITION. The named operations the meanings share: the steps of `accept` (41 R64 to R71), the two events beside it
(45 R111, R112) and the sampling of the input ports (92 D1 to D3). There is no exception to take (R113); the block's one
interruption is `realtimeReturn`, which saves nothing and returns to nothing (R119, R120). -/

namespace Sys2Proof.Machine

/-- Ends a step with the parser in state `p` and the output `o`. Every event ends so; the samples to come are untouched. -/
def State.finish (s : State) (p : Parser) (o : Output) : State :=
  { s with parser := p, output := o }

/-! ## The steps of `accept` -/

/-- Step 1, realtime interruption (R65, R94, R119): the byte is returned at once and no register is touched. -/
def realtimeReturn (b : Byte) (s : State) : Host.Outcome State Fault Refusal :=
  .next (s.finish s.parser (.message b))

/-- Steps 4 and 5 (R70, R71), with `p` the parser as step 2 or 3 left it: if nothing is pending, re-arm the count and
return the message; otherwise "no message yet". Where the count of `activeMessage` is undefined it refuses (D9, U2, U8). -/
def completionCheck (p : Parser) (s : State) : Host.Outcome State Fault Refusal :=
  match p.pendingCount with
  | .zero =>
    match epc p.activeMessage with
    | some n => .next (s.finish { p with pendingCount := n } (.message p.activeMessage))
    | none => .refused .epcOutsideDomain
  | .hold => .next (s.finish p .noMessage)
  | .one => .next (s.finish p .noMessage)
  | .two => .next (s.finish p .noMessage)

/-- Step 2, new message-start (R66, R67): whatever was in progress is replaced (R74). A SYSEX begin is returned without
step 4; any other byte falls through to it. -/
def startMessage (b : Byte) (s : State) : Host.Outcome State Fault Refusal :=
  match epc b with
  | some .hold => .next (s.finish { s.parser with activeMessage := b, pendingCount := .hold } (.message b))
  | some .zero => completionCheck { s.parser with activeMessage := b, pendingCount := .zero } s
  | some .one => completionCheck { s.parser with activeMessage := b, pendingCount := .one } s
  | some .two => completionCheck { s.parser with activeMessage := b, pendingCount := .two } s
  | none => .refused .epcOutsideDomain

/-- Step 3, data byte (R68): stored in slot `2 - pendingCount` while `pendingCount > 0`, then step 4; otherwise discarded
with output `None`, writing nothing and not reaching step 4 (R69, 90_conflicts C1). -/
def dataByte (b : Byte) (s : State) : Host.Outcome State Fault Refusal :=
  match s.parser.pendingCount.take? with
  | some (slot, left) => completionCheck { s.parser.setData slot b with pendingCount := left } s
  | none => .next (s.finish s.parser .noMessage)

/-! ## The events beside `accept` -/

/-- `Reset` (R111): all four registers 0, output none. -/
def resetEvent (s : State) : Host.Outcome State Fault Refusal :=
  .next (s.finish Parser.reset .quiet)

/-- `Idle` (R112): no register changes, output none. -/
def idleEvent (s : State) : Host.Outcome State Fault Refusal :=
  .next (s.finish s.parser .quiet)

/-! ## The input ports -/

/-- Ports of a step at which the caller presents nothing (R112: `in_valid = 0` and `reset = 0`). -/
def Sample.nothing : Sample := { reset := false, inValid := false, inByte := 0 }

/-- Ports of a step at which the caller presents the byte `b` (D1, D2). -/
def Sample.ofByte (b : Byte) : Sample := { reset := false, inValid := true, inByte := b }

/-- The event a sample asks for (D2): `reset` wins and the byte is dropped (R118, D3). -/
def Sample.event (x : Sample) : Event :=
  if x.reset then .reset else if x.inValid then .accept x.inByte else .idle

/-- A sample that asks for the event. -/
def Sample.ofEvent : Event → Sample
  | .accept b => Sample.ofByte b
  | .reset => { reset := true, inValid := false, inByte := 0 }
  | .idle => Sample.nothing

/-- What stands at the input ports at the next step. -/
def State.sample (s : State) : Sample := s.inputs.headD Sample.nothing

/-- The state with the next sample taken. -/
def State.advance (s : State) : State := { s with inputs := s.inputs.tail }

/-- The state with `x` at the input ports at the next step, in place of what stood there. -/
def State.present (s : State) (x : Sample) : State := { s with inputs := x :: s.inputs.tail }

end Sys2Proof.Machine
end

