-- ==== Sys2Proof/Machine/Channel.lean ====
section
/-! DEFINITION. The meanings of the seven channel status classes (42 R77 to R84): each starts its message. -/

namespace Sys2Proof.Machine

/-- `NOTE_OFF`, R78. -/
def execNoteOff (ch : Channel) (s : State) : Host.Outcome State Fault Refusal :=
  startMessage (channelByte 0 ch) s

/-- `NOTE_ON`, R79. -/
def execNoteOn (ch : Channel) (s : State) : Host.Outcome State Fault Refusal :=
  startMessage (channelByte 1 ch) s

/-- `POLY_AFTERTOUCH`, R80. -/
def execPolyAftertouch (ch : Channel) (s : State) : Host.Outcome State Fault Refusal :=
  startMessage (channelByte 2 ch) s

/-- `CONTROL_CHANGE`, R81. -/
def execControlChange (ch : Channel) (s : State) : Host.Outcome State Fault Refusal :=
  startMessage (channelByte 3 ch) s

/-- `PROGRAM_CHANGE`, R82. -/
def execProgramChange (ch : Channel) (s : State) : Host.Outcome State Fault Refusal :=
  startMessage (channelByte 4 ch) s

/-- `CHANNEL_PRESSURE`, R83. The count is 1 (90_conflicts C4). -/
def execChannelPressure (ch : Channel) (s : State) : Host.Outcome State Fault Refusal :=
  startMessage (channelByte 5 ch) s

/-- `PITCH_BEND`, R84. -/
def execPitchBend (ch : Channel) (s : State) : Host.Outcome State Fault Refusal :=
  startMessage (channelByte 6 ch) s

end Sys2Proof.Machine
end

