-- ==== Sys2Proof/Machine/Data.lean ====
section
/-! DEFINITION. The meaning of the data byte (41 R68 to R71). -/

namespace Sys2Proof.Machine

/-- `DATA`, R68: stored and counted while parameters are pending, discarded otherwise. -/
def execData (b : Byte) (s : State) : Host.Outcome State Fault Refusal :=
  dataByte b s

end Sys2Proof.Machine
end

