-- ==== Sys2Proof/Machine/Realtime.lean ====
section
/-! DEFINITION. The meanings of the eight realtime status classes (44 R94 to R102): each is returned at once. -/

namespace Sys2Proof.Machine

/-- `RT_F8`, R95. -/
def execRtF8 (s : State) : Host.Outcome State Fault Refusal :=
  realtimeReturn (realtimeByte 0) s

/-- `RT_F9`, R96. -/
def execRtF9 (s : State) : Host.Outcome State Fault Refusal :=
  realtimeReturn (realtimeByte 1) s

/-- `RT_FA`, R97. -/
def execRtFA (s : State) : Host.Outcome State Fault Refusal :=
  realtimeReturn (realtimeByte 2) s

/-- `RT_FB`, R98. -/
def execRtFB (s : State) : Host.Outcome State Fault Refusal :=
  realtimeReturn (realtimeByte 3) s

/-- `RT_FC`, R99. -/
def execRtFC (s : State) : Host.Outcome State Fault Refusal :=
  realtimeReturn (realtimeByte 4) s

/-- `RT_FD`, R100. -/
def execRtFD (s : State) : Host.Outcome State Fault Refusal :=
  realtimeReturn (realtimeByte 5) s

/-- `RT_FE`, R101. -/
def execRtFE (s : State) : Host.Outcome State Fault Refusal :=
  realtimeReturn (realtimeByte 6) s

/-- `RT_FF`, R102. It does not reset the parser. -/
def execRtFF (s : State) : Host.Outcome State Fault Refusal :=
  realtimeReturn (realtimeByte 7) s

end Sys2Proof.Machine
end

