-- ==== Sys2Proof/Machine/SystemCommon.lean ====
section
/-! DEFINITION. The meanings of the eight system-common status classes (43 R85 to R93): each starts its message, and those
without parameters complete at once. -/

namespace Sys2Proof.Machine

/-- `SYSEX`, R86. -/
def execSysex (s : State) : Host.Outcome State Fault Refusal :=
  startMessage (systemCommonByte 0) s

/-- `MTC_QUARTER_FRAME`, R87. -/
def execMtcQuarterFrame (s : State) : Host.Outcome State Fault Refusal :=
  startMessage (systemCommonByte 1) s

/-- `SONG_POSITION`, R88. -/
def execSongPosition (s : State) : Host.Outcome State Fault Refusal :=
  startMessage (systemCommonByte 2) s

/-- `SONG_SELECT`, R89. -/
def execSongSelect (s : State) : Host.Outcome State Fault Refusal :=
  startMessage (systemCommonByte 3) s

/-- `UNDEF_F4`, R90. -/
def execUndefF4 (s : State) : Host.Outcome State Fault Refusal :=
  startMessage (systemCommonByte 4) s

/-- `UNDEF_F5`, R91. -/
def execUndefF5 (s : State) : Host.Outcome State Fault Refusal :=
  startMessage (systemCommonByte 5) s

/-- `TUNE_REQUEST`, R92. -/
def execTuneRequest (s : State) : Host.Outcome State Fault Refusal :=
  startMessage (systemCommonByte 6) s

/-- `ENDEX`, R93. It ends a hold like any other message-start byte. -/
def execEndex (s : State) : Host.Outcome State Fault Refusal :=
  startMessage (systemCommonByte 7) s

end Sys2Proof.Machine
end

