-- ==== Sys2Proof/Machine/Dispatch.lean ====
section
/-! DEFINITION. One arm per byte class. -/

namespace Sys2Proof.Machine

-- What `Accept` of a byte of class `i` does (41 R64, specialised to each class by 42, 43 and 44).
def exec (i : Instr) (s : State) : Host.Outcome State Fault Refusal :=
  match i with
  | .data b => Sys2Proof.Machine.execData b s
  | .noteOff ch => Sys2Proof.Machine.execNoteOff ch s
  | .noteOn ch => Sys2Proof.Machine.execNoteOn ch s
  | .polyAftertouch ch => Sys2Proof.Machine.execPolyAftertouch ch s
  | .controlChange ch => Sys2Proof.Machine.execControlChange ch s
  | .programChange ch => Sys2Proof.Machine.execProgramChange ch s
  | .channelPressure ch => Sys2Proof.Machine.execChannelPressure ch s
  | .pitchBend ch => Sys2Proof.Machine.execPitchBend ch s
  | .sysex => Sys2Proof.Machine.execSysex s
  | .mtcQuarterFrame => Sys2Proof.Machine.execMtcQuarterFrame s
  | .songPosition => Sys2Proof.Machine.execSongPosition s
  | .songSelect => Sys2Proof.Machine.execSongSelect s
  | .undefF4 => Sys2Proof.Machine.execUndefF4 s
  | .undefF5 => Sys2Proof.Machine.execUndefF5 s
  | .tuneRequest => Sys2Proof.Machine.execTuneRequest s
  | .endex => Sys2Proof.Machine.execEndex s
  | .rtF8 => Sys2Proof.Machine.execRtF8 s
  | .rtF9 => Sys2Proof.Machine.execRtF9 s
  | .rtFA => Sys2Proof.Machine.execRtFA s
  | .rtFB => Sys2Proof.Machine.execRtFB s
  | .rtFC => Sys2Proof.Machine.execRtFC s
  | .rtFD => Sys2Proof.Machine.execRtFD s
  | .rtFE => Sys2Proof.Machine.execRtFE s
  | .rtFF => Sys2Proof.Machine.execRtFF s

end Sys2Proof.Machine
end

