-- ==== Sys2Proof/Machine/Events.lean ====
section
/-! DEFINITION. The three events of 00_scope R9 and runs of them. -/

namespace Sys2Proof.Machine

/-- Performs one event (R9, R33): `Accept(b)` is the meaning of the class of `b`. -/
def perform (e : Event) (s : State) : Host.Outcome State Fault Refusal :=
  match e with
  | .accept b => exec (decodeByte b) s
  | .reset => resetEvent s
  | .idle => idleEvent s

/-- A run (R9, R36): the events in order, each on the state the one before left, with the outputs in order; `none` if one
of them stops. It takes no port sample. -/
def runEvents (s : State) : List Event → Option (State × List Output)
  | [] => some (s, [])
  | e :: rest =>
    match perform e s with
    | .next t =>
      match runEvents t rest with
      | some (u, outs) => some (u, t.output :: outs)
      | none => none
    | .fault _ => none
    | .refused _ => none

/-- A run that accepts the bytes of a stream in order (R10). -/
def feed (s : State) (bytes : List Byte) : Option (State × List Output) :=
  runEvents s (bytes.map Event.accept)

end Sys2Proof.Machine
end

