-- ==== Sys2Proof/Machine/Step.lean ====
section
/-! DEFINITION. One step: sample the input ports and perform the event they ask for (92 D2). -/

namespace Sys2Proof.Machine

/-- One step of the machine. -/
def step (s : State) : Host.Outcome State Fault Refusal :=
  perform s.sample.event s.advance

/-- The state with the byte of an instruction word at the input ports, so that the next step accepts it. -/
def State.withFetchWord (s : State) (nbits w : Nat) : State :=
  s.present (Sample.ofByte (tableByte nbits w))

end Sys2Proof.Machine
end

