-- ==== Sys2Proof/Config.lean ====
section
/-! DEFINITION. What an implementation of the block fixes beyond the spec's values (00_scope R6): one number, which no step reads (92 D16). -/

namespace Sys2Proof

/-- One less than `T_STEP`. It has no value here, so nothing can rest on one (D16 leaves it OPEN; log entry 3). -/
opaque Config.tStepPred : Nat

/-- `T_STEP`: clock cycles per event, the same for every event, a positive number and otherwise open (D16, R141). -/
def Config.tStep : Nat := Config.tStepPred + 1

/-- Clock cycles that a run of `n` events takes (R141). No step depends on it: the model has no time. -/
def Config.cyclesOf (n : Nat) : Nat := n * Config.tStep

end Sys2Proof
end

