-- ==== Sys2Proof/Machine/Accept.lean ====
section
/-! DEFINITION. `Accept(b)` as 41 R64 writes it: one function of the byte and the parser, on the integer `pendingCount`,
without classes or decoder. `exec` does not use it; it is what the meanings are held against. -/

namespace Sys2Proof.Machine

/-- The count an integer in {-1, 0, 1, 2} stands for. -/
def PendingCount.ofInt? (n : Int) : Option PendingCount :=
  if n = -1 then some .hold
  else if n = 0 then some .zero
  else if n = 1 then some .one
  else if n = 2 then some .two
  else none

/-- Steps 4 and 5 of R64. No value where `epc(activeMessage)` has none. -/
def acceptStep4 (p : Parser) : Option (Parser × Output) :=
  if p.pendingCount.toInt = 0 then
    (epc p.activeMessage).map fun n => ({ p with pendingCount := n }, .message p.activeMessage)
  else some (p, .noMessage)

/-- Step 3's two writes: `data[2 - pendingCount] <- b; pendingCount <- pendingCount - 1`. -/
def acceptStore (b : Byte) (p : Parser) : Option Parser :=
  (PendingCount.ofInt? (p.pendingCount.toInt - 1)).map fun n =>
    if 2 - p.pendingCount.toInt = 0 then { p with data0 := b, pendingCount := n }
    else { p with data1 := b, pendingCount := n }

/-- R64, line by line. -/
def accept (b : Byte) (p : Parser) : Option (Parser × Output) :=
  if isRealtime b then some (p, .message b)
  else if isMessageStart b then
    (epc b).bind fun n =>
      if n.toInt = -1 then some ({ p with activeMessage := b, pendingCount := n }, .message b)
      else acceptStep4 { p with activeMessage := b, pendingCount := n }
  else if p.pendingCount.toInt > 0 then (acceptStore b p).bind acceptStep4
  else some (p, .noMessage)

end Sys2Proof.Machine
end

