-- ==== Sys2Proof/Machine/Flags.lean ====
section
/-! DEFINITION. The block has no flags and no condition codes (10_state R18). What it has instead: the status signals derived
from the state and the step, and the modes of R26. None holds state. -/

namespace Sys2Proof.Machine

/-- `msg_valid`: 1 exactly for a step whose output is `Some(c)` (R18). -/
def msgValid : Output → Bool
  | .quiet => false
  | .noMessage => false
  | .message _ => true

/-- `msg_code`: `c` when the output is `Some(c)`, else 0x00 (92 D4). -/
def msgCode : Output → Byte
  | .quiet => 0x00
  | .noMessage => 0x00
  | .message c => c

/-- `sysex_open`: 1 exactly while `pendingCount = -1` (R18, R110). -/
def sysexOpen (p : Parser) : Bool :=
  match p.pendingCount with
  | .hold => true
  | .zero => false
  | .one => false
  | .two => false

/-- The parsing modes of R26. -/
inductive Mode where
  | rest
  | collect
  | hold
deriving DecidableEq, Repr

/-- R26: the mode is a function of `pendingCount`. -/
def modeOf (p : Parser) : Mode :=
  match p.pendingCount with
  | .hold => .hold
  | .zero => .rest
  | .one => .collect
  | .two => .collect

end Sys2Proof.Machine
end

