-- ==== Sys2Proof/Machine/Accessors.lean ====
section
/-! DEFINITION. The read-only views over the state and the output ports (45 R103 to R110; 92 D1, D11). -/

namespace Sys2Proof.Machine

/-- R104. -/
def activeMessagePort (p : Parser) : Byte := p.activeMessage

/-- R105. -/
def data0Port (p : Parser) : Byte := p.getData 0

/-- R106. -/
def data1Port (p : Parser) : Byte := p.getData 1

/-- R107: `zext_14(data[1] << 7 | data[0])`; the shift loses nothing (R8), the 14-bit port truncates only a `data[1]` with
bit 7 set (92 D6). -/
def value14 (p : Parser) : BitVec 14 :=
  ((p.data1.setWidth 15 <<< 7) ||| p.data0.setWidth 15).setWidth 14

/-- A message code, decoded (R109); `kind` is the field R109 calls `type`, the bit field itself (92 D11). -/
inductive Decoded where
  | channel (kind : Selector) (ch : Channel)
  | systemCommon (kind : Selector)
  | realtime (kind : Selector)
deriving DecidableEq, Repr

/-- R109: the decoded view of a code that a step returned. -/
def decodedView (c : Byte) : Decoded :=
  if isRealtime c then .realtime (subField c)
  else if isSystemCommon c then .systemCommon (subField c)
  else .channel (opField c) (chField c)

/-- R109: the code of a decoded view. -/
def Decoded.code : Decoded → Byte
  | .channel kind ch => 0x80 ||| (kind.setWidth 8 <<< 4) ||| ch.setWidth 8
  | .systemCommon kind => 0xF0 ||| kind.setWidth 8
  | .realtime kind => 0xF8 ||| kind.setWidth 8

/-- R109: "a sum type ... plus the two raw parameter bytes"; `none` is MP's `None`. -/
structure CompletedMessage where
  view : Decoded
  data0 : Byte
  data1 : Byte
deriving DecidableEq, Repr

/-- What the last step completed, as R109 presents it. -/
def completedMessage (s : State) : Option CompletedMessage :=
  match s.output with
  | .quiet => none
  | .noMessage => none
  | .message c => some { view := decodedView c, data0 := data0Port s.parser, data1 := data1Port s.parser }

/-- The output ports of D1. -/
structure OutPorts where
  msgValid : Bool
  msgCode : Byte
  activeMessage : Byte
  data0 : Byte
  data1 : Byte
  value14 : BitVec 14
  sysexOpen : Bool
deriving DecidableEq, Repr

/-- What the output ports show after a step: "`msg_valid` and `msg_code` describe the event just performed; the other
outputs show the state after it" (D1). -/
def outPorts (s : State) : OutPorts :=
  { msgValid := Machine.msgValid s.output
    msgCode := Machine.msgCode s.output
    activeMessage := activeMessagePort s.parser
    data0 := data0Port s.parser
    data1 := data1Port s.parser
    value14 := Machine.value14 s.parser
    sysexOpen := Machine.sysexOpen s.parser }

end Sys2Proof.Machine
end

