-- ==== Sys2Proof/Machine/Instances.lean ====
section
/-! DEFINITION. Several streams (60 R125): independent instances, each with its own events, sharing nothing. -/

namespace Sys2Proof.Machine

/-- One step of instance `k` of a system; `none` if there is no such instance or it stops. -/
def stepInstance (system : List State) (k : Nat) : Option (List State) :=
  match system[k]? with
  | none => none
  | some s =>
    match step s with
    | .next t => some (system.set k t)
    | .fault _ => none
    | .refused _ => none

end Sys2Proof.Machine
end

