-- ==== Sys2Proof/Safety.lean ====
section
/-! DEFINITION. The reachable-state invariant (10_state R19), the validity window of the accessors (45 R108) and the terms in
which the obligations speak of streams. -/

namespace Sys2Proof.Safety

open Sys2Proof.Machine

/-! ## The invariant -/

/-- R19, the control part: what `pendingCount` may be under an `activeMessage`. -/
abbrev ControlInv (am : Byte) (n : PendingCount) : Prop :=
  (am = 0x00#8 ∧ n = .zero) ∨
  (0x80#8 ≤ am ∧ am ≤ 0xF7#8 ∧
    ((epc am = some .hold ∧ n = .hold) ∨ (epc am = some .zero ∧ n = .zero) ∨
     (epc am = some .one ∧ n = .one) ∨ (epc am = some .two ∧ (n = .one ∨ n = .two))))

/-- R19: the reachable-state invariant. -/
abbrev Inv (p : Parser) : Prop :=
  ControlInv p.activeMessage p.pendingCount ∧ p.data0 ≤ 0x7F#8 ∧ p.data1 ≤ 0x7F#8

/-- Exactly the reachable parser states (95_test_vectors section 5): R19, and with no message yet both slots are 0. -/
abbrev ReachableShape (p : Parser) : Prop :=
  Inv p ∧ (p.activeMessage = 0x00#8 → p.data0 = 0x00#8 ∧ p.data1 = 0x00#8)

/-! ## Bytes and streams -/

/-- A data byte (R42, R55). -/
abbrev isData (b : Byte) : Prop := isMessageStart b = false

/-- A message-start byte that is not realtime, the narrow sense of 90_conflicts C6. -/
abbrev isNarrowStart (b : Byte) : Prop := isMessageStart b = true ∧ isRealtime b = false

/-- What the step of a byte that starts and completes nothing puts out: a realtime byte itself, for a data byte `None`. -/
def passOutput (b : Byte) : Output := if isRealtime b then .message b else .noMessage

/-- The parts of a run's result that R9 and R142 observe: the parser and the outputs. -/
def observe (r : Option (State × List Output)) : Option (Parser × List Output) :=
  r.map fun x => (x.1.parser, x.2)

/-- The next state of an outcome, if it is one. -/
def nextOf (o : Host.Outcome State Fault Refusal) : Option State :=
  match o with
  | .next t => some t
  | .fault _ => none
  | .refused _ => none

/-! ## Whole messages (30_encoding R48) -/

/-- Feeding `[b, v, w]` from any state reports one message, at the last byte, with `v` in `data[0]` and `w` in `data[1]`. -/
def ReportsTwoParameters (b : Byte) : Prop :=
  ∀ (s : State) (v w : Byte), isData v → isData w →
    feed s [b, v, w] = some (
      { s with
        parser := { activeMessage := b, pendingCount := .two, data0 := v, data1 := w }
        output := .message b },
      [.noMessage, .noMessage, .message b])

/-- Feeding `[b, w, x]` from any state reports a message at `w` and again at `x` (running status), each in `data[1]`;
`data[0]` keeps what it held. -/
def ReportsOneParameter (b : Byte) : Prop :=
  ∀ (s : State) (w x : Byte), isData w → isData x →
    feed s [b, w] = some (
      { s with
        parser := { activeMessage := b, pendingCount := .one, data0 := s.parser.data0, data1 := w }
        output := .message b },
      [.noMessage, .message b]) ∧
    feed s [b, w, x] = some (
      { s with
        parser := { activeMessage := b, pendingCount := .one, data0 := s.parser.data0, data1 := x }
        output := .message b },
      [.noMessage, .message b, .message b])

/-- Feeding `[b, v]` from any state reports `b` at once; a data byte `v` after it is discarded and no slot is written. -/
def ReportsAtOnceAndRests (b : Byte) : Prop :=
  ∀ (s : State) (v : Byte), isData v →
    feed s [b, v] = some (
      { s with
        parser := { activeMessage := b, pendingCount := .zero, data0 := s.parser.data0, data1 := s.parser.data1 }
        output := .noMessage },
      [.message b, .noMessage])

/-! ## The validity window (45 R108, 70 R133) -/

/-- From the newest event back: the accessors describe the message whose code was returned last exactly when the last
`Accept` returned `Some(c)` with `c` neither realtime nor a status byte of count 0 or -1, and no `Accept` or `Reset` has
happened since. -/
def windowOpen : List (Event × Output) → Bool
  | [] => false
  | (.idle, _) :: earlier => windowOpen earlier
  | (.reset, _) :: _ => false
  | (.accept _, .quiet) :: _ => false
  | (.accept _, .noMessage) :: _ => false
  | (.accept _, .message c) :: _ =>
    match epc c with
    | some .one => true
    | some .two => true
    | some .zero => false
    | some .hold => false
    | none => false

/-- From the newest event back: the last byte accepted since the last `Reset`, with its output. -/
def lastAccept : List (Event × Output) → Option (Byte × Output)
  | [] => none
  | (.idle, _) :: earlier => lastAccept earlier
  | (.reset, _) :: _ => none
  | (.accept b, o) :: _ => some (b, o)

/-- From the newest event back: the bytes accepted since the last `Reset`, newest first, without the realtime ones, which
are never counted as parameters (R53). -/
def heardBytes : List (Event × Output) → List Byte
  | [] => []
  | (.idle, _) :: earlier => heardBytes earlier
  | (.reset, _) :: _ => []
  | (.accept b, _) :: earlier => if isRealtime b then heardBytes earlier else b :: heardBytes earlier

/-- The accessors describe the message returned last: the last `Accept` returned the code in `activeMessage`, the byte it
accepted is a parameter of that message and is in `data[1]` (R106), and when the message has two parameters the byte heard
before that one is its first and is in `data[0]` (R105). -/
def Describes (history : List (Event × Output)) (p : Parser) : Prop :=
  ∃ (b : Byte) (before : List Byte),
    lastAccept history = some (b, .message (activeMessagePort p)) ∧ heardBytes history = b :: before ∧
    isData b ∧ data1Port p = b ∧
    (epc (activeMessagePort p) = some .two → ∃ (a : Byte) (rest : List Byte),
      before = a :: rest ∧ isData a ∧ data0Port p = a)

end Sys2Proof.Safety
end

