-- ==== Sys2Proof/Certificates/Slice0/Obligations.lean ====
section
/-! DEFINITION. The statements for the provers, from the spec's numbered rules, file by file. `s.parser` is the parser's whole
state (R13); a statement that gives the next state as a record update says with it that everything else is unchanged. -/

open Sys2Proof Sys2Proof.Machine Sys2Proof.Safety

/-! ## Encoding (30_encoding, 40_classifier) -/

/-- R50: bytes written out from the pattern column decode to their classes, one or more of every format. -/
def Obligations.SpecWordsDecodeToTheirClasses : Prop :=
  decode [0b01111111] = .ok (.data 0x7F, []) ∧
  decode [0b10000011] = .ok (.noteOff 3, []) ∧
  decode [0b11001111] = .ok (.programChange 15, []) ∧
  decode [0b11011010] = .ok (.channelPressure 10, []) ∧
  decode [0b11100001] = .ok (.pitchBend 1, []) ∧
  decode [0b11110010] = .ok (.songPosition, []) ∧
  decode [0b11110111] = .ok (.endex, []) ∧
  decode [0b11111000] = .ok (.rtF8, []) ∧
  decode [] = .error .noByte

/-- Decoding the encoding of a well-formed instruction gives it back, and the rest of the stream (R41, R50). -/
def Obligations.DecodeOfEncodeIsTheInstruction : Prop :=
  ∀ (i : Instr) (rest : List Byte), i.wellFormed = true → decode (encode i ++ rest) = .ok (i, rest)

/-- Every byte is an instruction, a well-formed one, and is its encoding (R41: "all 256 values are legal"). -/
def Obligations.EveryByteDecodesAndEncodesBack : Prop :=
  ∀ (b : Byte) (rest : List Byte),
    ∃ i : Instr, i.wellFormed = true ∧ decode (b :: rest) = .ok (i, rest) ∧ encode i = [b]

/-- R50: of the 24 rows a byte has the pattern of exactly one, the row of the class it decodes to, and that row's format. -/
def Obligations.OpcodeTableAgreesWithDecoder : Prop :=
  opcodeTable.length = 24 ∧
  ∀ (b : Byte) (k : Nat) (row : OpcodeRow), opcodeTable[k]? = some row →
    (rowMatches row b = true ↔ k = rowOf (decodeByte b)) ∧
    (rowMatches row b = true → row.format = (decodeByte b).format)

/-- R46: the format of the class a byte decodes to follows the mask tests in their order, and the formats partition the
bytes as 128 + 112 + 8 + 8. -/
def Obligations.DecodedFormatFollowsTheMaskTests : Prop :=
  (∀ b : Byte,
    (b &&& 0xF8 = 0xF8 → (decodeByte b).format = .r) ∧
    (b &&& 0xF8 ≠ 0xF8 → b &&& 0x80 = 0x80 → b &&& 0xF8 = 0xF0 → (decodeByte b).format = .s) ∧
    (b &&& 0xF8 ≠ 0xF8 → b &&& 0x80 = 0x80 → b &&& 0xF8 ≠ 0xF0 → (decodeByte b).format = .c) ∧
    (b &&& 0xF8 ≠ 0xF8 → b &&& 0x80 ≠ 0x80 → (decodeByte b).format = .d)) ∧
  ((List.range 256).map fun n => (decodeByte (BitVec.ofNat 8 n)).format).count .d = 128 ∧
  ((List.range 256).map fun n => (decodeByte (BitVec.ofNat 8 n)).format).count .c = 112 ∧
  ((List.range 256).map fun n => (decodeByte (BitVec.ofNat 8 n)).format).count .s = 8 ∧
  ((List.range 256).map fun n => (decodeByte (BitVec.ofNat 8 n)).format).count .r = 8

/-- R55, R56, R57: the predicates as ranges, with R56's implication and R57's disjointness. -/
def Obligations.ClassifierPredicatesAreRanges : Prop :=
  ∀ b : Byte,
    (isMessageStart b = true ↔ 0x80 ≤ b.toNat) ∧ (isMessageStart b = b.msb) ∧
    (isRealtime b = true ↔ 0xF8 ≤ b.toNat) ∧ (isRealtime b = true → isMessageStart b = true) ∧
    (isSystemCommon b = true ↔ 0xF0 ≤ b.toNat ∧ b.toNat ≤ 0xF7) ∧
    ¬ (isSystemCommon b = true ∧ isRealtime b = true)

/-- R62 (the spec's derivation): every byte is exactly one of data, channel, system-common, realtime. -/
def Obligations.EveryByteIsExactlyOneKind : Prop :=
  ∀ b : Byte,
    ((!isMessageStart b).toNat + (isChannel b).toNat + (isSystemCommon b).toNat + (isRealtime b).toNat = 1) ∧
    (isChannel b = true ↔ 0x80 ≤ b.toNat ∧ b.toNat ≤ 0xEF)

/-- R59: `epc` looks up `SC_TABLE` or `CH_TABLE`, has a value exactly on 0x80 to 0xF7, and the channel does not enter it;
with the rule's own values. -/
def Obligations.ParameterCountIsDefinedOnItsDomain : Prop :=
  (∀ b : Byte, isSystemCommon b = true → epc b = scTable[(subField b).toNat]?) ∧
  (∀ b : Byte, 0x80 ≤ b.toNat → b.toNat ≤ 0xEF → epc b = chTable[(opField b).toNat]?) ∧
  (∀ b : Byte, (epc b).isSome = true ↔ 0x80 ≤ b.toNat ∧ b.toNat ≤ 0xF7) ∧
  (∀ (op : Selector) (ch ch' : Channel), op ≠ 7 → epc (channelByte op ch) = epc (channelByte op ch')) ∧
  epc 0x80 = some .two ∧ epc 0xEF = some .two ∧ epc 0xF0 = some .hold ∧ epc 0xF7 = some .zero ∧ epc 0xC0 = some .one ∧
  epc 0xCF = some .one ∧ epc 0x93 = some .two

/-- The count tables by status byte (R60, R61, the spec's D8) and the message lengths that follow (R48). -/
def Obligations.MessageLengthFollowsFromTheStatusByte : Prop :=
  ∀ b : Byte,
    (0x80 ≤ b.toNat ∧ b.toNat ≤ 0xBF ∨ 0xE0 ≤ b.toNat ∧ b.toNat ≤ 0xEF ∨ b.toNat = 0xF2 →
      epc b = some .two ∧ messageLength b = some (.bytes 3)) ∧
    (0xC0 ≤ b.toNat ∧ b.toNat ≤ 0xDF ∨ b.toNat = 0xF1 ∨ b.toNat = 0xF3 →
      epc b = some .one ∧ messageLength b = some (.bytes 2)) ∧
    (0xF4 ≤ b.toNat ∧ b.toNat ≤ 0xF7 → epc b = some .zero ∧ messageLength b = some (.bytes 1)) ∧
    (b.toNat = 0xF0 → epc b = some .hold ∧ messageLength b = some .indefinite) ∧
    (0xF8 ≤ b.toNat → epc b = none ∧ messageLength b = some (.bytes 1)) ∧
    (b.toNat ≤ 0x7F → epc b = none ∧ messageLength b = none)

/-! ## Reset and the invariant (10_state, 60_exceptions, 70_reset_and_hazards) -/

/-- R22: the reset state, and with it `sysex_open = 0` and the 14-bit accessor 0. -/
def Obligations.ResetLeavesAllRegistersZero : Prop :=
  State.reset.parser = { activeMessage := 0, pendingCount := .zero, data0 := 0, data1 := 0 } ∧
  sysexOpen State.reset.parser = false ∧ value14 State.reset.parser = 0

/-- The reset state meets R19 (an inference of the spec's own). -/
def Obligations.ResetStateMeetsTheInvariant : Prop :=
  Inv State.reset.parser

/-- R19 (an inference of the spec's own) is kept by every step, from every state that meets it, whatever the caller presents. -/
def Obligations.EveryStepKeepsTheInvariant : Prop :=
  ∀ s t : State, Inv s.parser → step s = .next t → Inv t.parser

/-- The reachable shape (R19, and with no message yet both slots 0; 95 section 5; inferences of the spec's own) is kept by
every step. -/
def Obligations.EveryStepKeepsTheReachableShape : Prop :=
  ∀ s t : State, ReachableShape s.parser → step s = .next t → ReachableShape t.parser

/-- R113: no step faults, in any state; and from every state that meets R19 every step, whatever byte or event is
presented, answers a next state. -/
def Obligations.NoStepFaultsOrSticks : Prop :=
  (∀ (s : State) (f : Fault), step s ≠ .fault f) ∧
  (∀ s : State, Inv s.parser → ∃ t : State, step s = .next t)

/-- From reset every sequence of events runs, with one output each, and ends in a state that meets R19. -/
def Obligations.RunsFromResetNeverStop : Prop :=
  ∀ events : List Event, ∃ (t : State) (outs : List Output),
    runEvents State.reset events = some (t, outs) ∧ outs.length = events.length ∧ Inv t.parser

/-- The reachable parser states are exactly those of R19 in which, with no message yet, both slots are 0 (95 section 5). -/
def Obligations.ReachableParsersAreExactlyTheShape : Prop :=
  ∀ p : Parser,
    (∃ (events : List Event) (t : State) (outs : List Output),
      runEvents State.reset events = some (t, outs) ∧ t.parser = p) ↔ ReachableShape p

/-- R19 (an inference of the spec's own): the control part has 202 values, by `pendingCount` 81, 115, 5 and 1. -/
def Obligations.ControlValuesNumber202 : Prop :=
  ((List.range 256).filter fun n => ControlInv (BitVec.ofNat 8 n) .two).length = 81 ∧
  ((List.range 256).filter fun n => ControlInv (BitVec.ofNat 8 n) .one).length = 115 ∧
  ((List.range 256).filter fun n => ControlInv (BitVec.ofNat 8 n) .zero).length = 5 ∧
  ((List.range 256).filter fun n => ControlInv (BitVec.ofNat 8 n) .hold).length = 1

/-- The one stop of the model: a data byte that completes a message whose count is undefined (92 D9, 93 U2, U8; log entry 4). -/
def Obligations.OnlyAnUndefinedCountRefuses : Prop :=
  ∀ (i : Instr) (s : State) (r : Refusal),
    exec i s = .refused r ↔
      r = .epcOutsideDomain ∧ (∃ b : Byte, i = .data b) ∧ s.parser.pendingCount = .one ∧
        epc s.parser.activeMessage = none

/-! ## The step and the events beside `accept` (92 D2, 45_accessors_and_reset) -/

/-- When the sample at the ports is a byte (no reset) that decodes to `i`, the step is `exec` of `i` with the sample taken. -/
def Obligations.StepRunsTheDecodedByte : Prop :=
  ∀ (s : State) (i : Instr), s.sample.reset = false → s.sample.inValid = true →
    decode [s.sample.inByte] = .ok (i, []) → i.wellFormed = true →
      step s = exec i { s with inputs := s.inputs.tail }

/-- `withFetchWord` puts an instruction where the very next step runs it. -/
def Obligations.FetchWordIsTheNextInstruction : Prop :=
  ∀ (s : State) (nbits w : Nat) (i : Instr), decodeTableWord nbits w = some i →
    step (s.withFetchWord nbits w) = exec i { s with inputs := s.inputs.tail }

/-- R111: `Reset` zeroes the registers from any state with output none and `msg_valid` 0, is idempotent, and whatever
follows it runs as on a fresh instance. -/
def Obligations.ResetEventGivesAFreshInstance : Prop :=
  ∀ s : State,
    perform .reset s = .next { s with
      parser := { activeMessage := 0, pendingCount := .zero, data0 := 0, data1 := 0 }, output := .quiet } ∧
    ∀ t : State, perform .reset s = .next t →
      msgValid t.output = false ∧ sysexOpen t.parser = false ∧ perform .reset t = .next t ∧
      ∀ events : List Event, observe (runEvents t events) = observe (runEvents State.reset events)

/-- Reset against a byte in the same step: reset wins and the byte is dropped (R118, the spec's decision D3; log entry 5). -/
def Obligations.ResetWinsOverAByte : Prop :=
  ∀ (s : State) (b : Byte) (valid : Bool) (later : List Sample),
    s.inputs = { reset := true, inValid := valid, inByte := b } :: later →
      step s = .next { parser := Parser.reset, output := .quiet, inputs := later }

/-- `Idle`, the ports at `in_valid = 0` and `reset = 0` or nothing presented (R112, the spec's decision D2; log entry 1):
no register changes, the output is none; and an `Idle` anywhere in a run changes nothing but adds its own output. -/
def Obligations.IdleChangesNoRegister : Prop :=
  (∀ s : State, s.sample.reset = false → s.sample.inValid = false →
    step s = .next { s with output := .quiet, inputs := s.inputs.tail }) ∧
  (∀ (s u : State) (before after : List Event) (outs : List Output),
    runEvents s before = some (u, outs) →
      observe (runEvents s (before ++ .idle :: after)) =
        (observe (runEvents u after)).map fun x => (x.1, outs ++ .quiet :: x.2))

/-- R36 (an inference of the spec's own): the host's run over the samples of a list of events is the run of those events in
order, each on the state the one before left. -/
def Obligations.HostRunPerformsTheEventsInOrder : Prop :=
  ∀ (events : List Event) (s t : State) (later : List Sample),
    s.inputs = events.map Sample.ofEvent ++ later →
      (Host.Core.run Sys2Proof.core events.length s = .next t ↔
        ∃ outs : List Output, runEvents { s with inputs := later } events = some (t, outs))

/-! ## Realtime bytes (44_realtime, 60_exceptions) -/

/-- R95 to R102: each realtime byte is returned at once and no register changes, in any state. -/
def Obligations.RealtimeBytesReturnAtOnce : Prop :=
  ∀ s : State,
    (encode .rtF8 = [0xF8] ∧ exec .rtF8 s = .next { s with output := .message 0xF8 }) ∧
    (encode .rtF9 = [0xF9] ∧ exec .rtF9 s = .next { s with output := .message 0xF9 }) ∧
    (encode .rtFA = [0xFA] ∧ exec .rtFA s = .next { s with output := .message 0xFA }) ∧
    (encode .rtFB = [0xFB] ∧ exec .rtFB s = .next { s with output := .message 0xFB }) ∧
    (encode .rtFC = [0xFC] ∧ exec .rtFC s = .next { s with output := .message 0xFC }) ∧
    (encode .rtFD = [0xFD] ∧ exec .rtFD s = .next { s with output := .message 0xFD }) ∧
    (encode .rtFE = [0xFE] ∧ exec .rtFE s = .next { s with output := .message 0xFE }) ∧
    (encode .rtFF = [0xFF] ∧ exec .rtFF s = .next { s with output := .message 0xFF })

/-- R120 (an inference of the spec's own), for any number of realtime bytes anywhere in a stream: without them the stream
ends in the same parser state and gives the same outputs for the bytes that are left, and each of them puts out itself. -/
def Obligations.RealtimeBytesNeverDisturbAStream : Prop :=
  ∀ (s t : State) (bytes : List Byte) (outs : List Output), feed s bytes = some (t, outs) →
    (∃ u : State,
      feed s (bytes.filter fun b => !isRealtime b) =
        some (u, ((bytes.zip outs).filter fun x => !isRealtime x.1).map Prod.snd) ∧ u.parser = t.parser) ∧
    ∀ x ∈ bytes.zip outs, isRealtime x.1 = true → x.2 = .message x.1

/-! ## Channel status bytes (42_channel_messages) -/

/-- R78 to R81: the status byte starts its message, from any state and for any channel; the message of three bytes is
reported by its last, with the parameters in their slots. -/
def Obligations.TwoParameterChannelMessages : Prop :=
  (∀ (ch : Channel) (s : State), encode (.noteOff ch) = [0x80 ||| ch.setWidth 8] ∧
    exec (.noteOff ch) s = .next { s with
      parser := { s.parser with activeMessage := 0x80 ||| ch.setWidth 8, pendingCount := .two }, output := .noMessage }) ∧
  (∀ (ch : Channel) (s : State), encode (.noteOn ch) = [0x90 ||| ch.setWidth 8] ∧
    exec (.noteOn ch) s = .next { s with
      parser := { s.parser with activeMessage := 0x90 ||| ch.setWidth 8, pendingCount := .two }, output := .noMessage }) ∧
  (∀ (ch : Channel) (s : State), encode (.polyAftertouch ch) = [0xA0 ||| ch.setWidth 8] ∧
    exec (.polyAftertouch ch) s = .next { s with
      parser := { s.parser with activeMessage := 0xA0 ||| ch.setWidth 8, pendingCount := .two }, output := .noMessage }) ∧
  (∀ (ch : Channel) (s : State), encode (.controlChange ch) = [0xB0 ||| ch.setWidth 8] ∧
    exec (.controlChange ch) s = .next { s with
      parser := { s.parser with activeMessage := 0xB0 ||| ch.setWidth 8, pendingCount := .two }, output := .noMessage }) ∧
  (∀ ch : Channel,
    ReportsTwoParameters (0x80 ||| ch.setWidth 8) ∧ ReportsTwoParameters (0x90 ||| ch.setWidth 8) ∧
    ReportsTwoParameters (0xA0 ||| ch.setWidth 8) ∧ ReportsTwoParameters (0xB0 ||| ch.setWidth 8))

/-- R82, R83: the status byte starts its message; every single data byte after it completes one, in `data[1]`. -/
def Obligations.OneParameterChannelMessages : Prop :=
  (∀ (ch : Channel) (s : State), encode (.programChange ch) = [0xC0 ||| ch.setWidth 8] ∧
    exec (.programChange ch) s = .next { s with
      parser := { s.parser with activeMessage := 0xC0 ||| ch.setWidth 8, pendingCount := .one }, output := .noMessage }) ∧
  (∀ (ch : Channel) (s : State), encode (.channelPressure ch) = [0xD0 ||| ch.setWidth 8] ∧
    exec (.channelPressure ch) s = .next { s with
      parser := { s.parser with activeMessage := 0xD0 ||| ch.setWidth 8, pendingCount := .one }, output := .noMessage }) ∧
  (∀ ch : Channel,
    ReportsOneParameter (0xC0 ||| ch.setWidth 8) ∧ ReportsOneParameter (0xD0 ||| ch.setWidth 8))

/-- R84: as R78, and after the message the 14-bit accessor reads the first data byte as the low and the second as the high
7 bits. -/
def Obligations.PitchBendReadsFourteenBits : Prop :=
  (∀ (ch : Channel) (s : State), encode (.pitchBend ch) = [0xE0 ||| ch.setWidth 8] ∧
    exec (.pitchBend ch) s = .next { s with
      parser := { s.parser with activeMessage := 0xE0 ||| ch.setWidth 8, pendingCount := .two }, output := .noMessage }) ∧
  (∀ ch : Channel, ReportsTwoParameters (0xE0 ||| ch.setWidth 8)) ∧
  (∀ (ch : Channel) (s t : State) (v w : Byte) (outs : List Output), isData v → isData w →
    feed s [0xE0 ||| ch.setWidth 8, v, w] = some (t, outs) →
      (value14 t.parser).toNat = 128 * w.toNat + v.toNat)

/-! ## System-common status bytes (43_system_common) -/

/-- R86: SYSEX is returned at once and opens the hold, from any state, with `data` untouched; a body of data bytes is
discarded byte by byte until ENDEX, itself returned at once. -/
def Obligations.SysexOpensTheHoldUntilEndex : Prop :=
  ∀ s : State, encode .sysex = [0xF0] ∧
    exec .sysex s = .next { s with
      parser := { s.parser with activeMessage := 0xF0, pendingCount := .hold }, output := .message 0xF0 } ∧
    (∀ t : State, exec .sysex s = .next t → sysexOpen t.parser = true) ∧
    ∀ body : List Byte, (∀ b ∈ body, isData b) →
      feed s (0xF0 :: body) = some (
        { s with
          parser := { s.parser with activeMessage := 0xF0, pendingCount := .hold }
          output := if body = [] then .message 0xF0 else .noMessage },
        .message 0xF0 :: body.map fun _ => .noMessage) ∧
      feed s (0xF0 :: body ++ [0xF7]) = some (
        { s with
          parser := { s.parser with activeMessage := 0xF7, pendingCount := .zero }, output := .message 0xF7 },
        .message 0xF0 :: (body.map fun _ => .noMessage) ++ [.message 0xF7])

/-- R87, R89: as the one-parameter channel messages, running status included. -/
def Obligations.OneParameterSystemCommon : Prop :=
  (∀ s : State, encode .mtcQuarterFrame = [0xF1] ∧
    exec .mtcQuarterFrame s = .next { s with
      parser := { s.parser with activeMessage := 0xF1, pendingCount := .one }, output := .noMessage }) ∧
  (∀ s : State, encode .songSelect = [0xF3] ∧
    exec .songSelect s = .next { s with
      parser := { s.parser with activeMessage := 0xF3, pendingCount := .one }, output := .noMessage }) ∧
  ReportsOneParameter 0xF1 ∧ ReportsOneParameter 0xF3

/-- R88: a message of three bytes; its parameters read together as the 14-bit accessor; a realtime byte between its data
bytes is returned and the message still completes. -/
def Obligations.SongPositionMessage : Prop :=
  (∀ s : State, encode .songPosition = [0xF2] ∧
    exec .songPosition s = .next { s with
      parser := { s.parser with activeMessage := 0xF2, pendingCount := .two }, output := .noMessage }) ∧
  ReportsTwoParameters 0xF2 ∧
  (∀ (s : State) (v r w : Byte), isData v → isRealtime r = true → isData w →
    ∃ t : State, feed s [0xF2, v, r, w] = some (t, [.noMessage, .noMessage, .message r, .message 0xF2]) ∧
      t.parser = { activeMessage := 0xF2, pendingCount := .two, data0 := v, data1 := w } ∧
      (value14 t.parser).toNat = 128 * w.toNat + v.toNat)

/-- R90 to R93: returned at once from any state, resting with `data` unchanged; a data byte after it is discarded; after
ENDEX `sysex_open` is 0. -/
def Obligations.ZeroParameterSystemCommon : Prop :=
  (∀ s : State, encode .undefF4 = [0xF4] ∧
    exec .undefF4 s = .next { s with
      parser := { s.parser with activeMessage := 0xF4, pendingCount := .zero }, output := .message 0xF4 }) ∧
  (∀ s : State, encode .undefF5 = [0xF5] ∧
    exec .undefF5 s = .next { s with
      parser := { s.parser with activeMessage := 0xF5, pendingCount := .zero }, output := .message 0xF5 }) ∧
  (∀ s : State, encode .tuneRequest = [0xF6] ∧
    exec .tuneRequest s = .next { s with
      parser := { s.parser with activeMessage := 0xF6, pendingCount := .zero }, output := .message 0xF6 }) ∧
  (∀ s : State, encode .endex = [0xF7] ∧
    exec .endex s = .next { s with
      parser := { s.parser with activeMessage := 0xF7, pendingCount := .zero }, output := .message 0xF7 } ∧
    ∀ t : State, exec .endex s = .next t → sysexOpen t.parser = false) ∧
  ReportsAtOnceAndRests 0xF4 ∧ ReportsAtOnceAndRests 0xF5 ∧ ReportsAtOnceAndRests 0xF6 ∧ ReportsAtOnceAndRests 0xF7

/-! ## The data byte (41_accept_and_data_byte) -/

/-- R68: a byte with bit 7 clear is `DATA`, and its cases, in every state in which they are defined. -/
def Obligations.DataByteIsStoredCompletedOrDiscarded : Prop :=
  ∀ (b : Byte) (s : State),
    (isData b → decode [b] = .ok (.data b, [])) ∧
    (s.parser.pendingCount = .two →
      exec (.data b) s = .next { s with
        parser := { s.parser with data0 := b, pendingCount := .one }, output := .noMessage }) ∧
    (∀ n : PendingCount, s.parser.pendingCount = .one → epc s.parser.activeMessage = some n →
      exec (.data b) s = .next { s with
        parser := { s.parser with data1 := b, pendingCount := n }, output := .message s.parser.activeMessage }) ∧
    (s.parser.pendingCount = .zero ∨ s.parser.pendingCount = .hold →
      exec (.data b) s = .next { s with output := .noMessage })

/-- R75 a, b, c (an inference of the spec's own): a slot is taken exactly when `pendingCount > 0`, it is slot
`2 - pendingCount`, and the count left is `pendingCount - 1`. -/
def Obligations.SlotIsTwoMinusPendingCount : Prop :=
  ∀ n : PendingCount,
    (n.take?.isSome = true ↔ n.toInt > 0) ∧
    ∀ (slot : Fin 2) (left : PendingCount), n.take? = some (slot, left) →
      (slot.val : Int) = 2 - n.toInt ∧ left.toInt = n.toInt - 1

/-- R69 (an inference of the spec's own): on states that meet R19 a data byte leaves the parser as it is with output
`None` exactly in six control states. -/
def Obligations.DiscardHappensInSixControlStates : Prop :=
  ∀ (b : Byte) (s : State), Inv s.parser →
    (exec (.data b) s = .next { s with output := .noMessage } ↔
      (s.parser.activeMessage, s.parser.pendingCount) ∈
        [(0x00#8, PendingCount.zero), (0xF4#8, .zero), (0xF5#8, .zero), (0xF6#8, .zero), (0xF7#8, .zero), (0xF0#8, .hold)])

/-- R64: the meaning of the class of a byte is `Accept` of that byte, as the rule's pseudocode has it; where that has no
value (an undefined count), the meaning refuses, which is the spec's decision D9 (log entry 4). -/
def Obligations.MeaningsAreTheAcceptTransition : Prop :=
  ∀ (b : Byte) (s : State),
    exec (decodeByte b) s =
      match accept b s.parser with
      | some (p, o) => .next { s with parser := p, output := o }
      | none => .refused .epcOutsideDomain

/-! ## Frames and whole-machine rules -/

/-- What each format leaves unchanged when `exec` answers a next state: the inputs always; a realtime byte every register;
a system-common or channel byte both slots; a data byte `activeMessage`, and all of the parser but one slot and the count
while parameters are pending, and all of it otherwise (10_state sections 1 and 2). -/
def Obligations.FrameOfEachFormat : Prop :=
  ∀ (i : Instr) (s t : State), exec i s = .next t →
    t.inputs = s.inputs ∧
    (i.format = .r → t.parser = s.parser) ∧
    (i.format = .s ∨ i.format = .c → t.parser.data0 = s.parser.data0 ∧ t.parser.data1 = s.parser.data1) ∧
    (i.format = .d → t.parser.activeMessage = s.parser.activeMessage ∧
      (s.parser.pendingCount = .two → t.parser.data1 = s.parser.data1) ∧
      (s.parser.pendingCount = .one → t.parser.data0 = s.parser.data0) ∧
      (s.parser.pendingCount = .zero ∨ s.parser.pendingCount = .hold → t.parser = s.parser))

/-- R20: in a step other than `Reset`, `activeMessage` is overwritten exactly by a non-realtime message-start byte, which it
then holds; a data byte, a realtime byte or an idle step keeps it. `pendingCount` and `data` have no other values by their
types. -/
def Obligations.ActiveMessageIsOverwrittenOnlyByStarts : Prop :=
  ∀ s t : State, step s = .next t →
    (∀ b : Byte, s.sample.event = .accept b → isNarrowStart b → t.parser.activeMessage = b) ∧
    (∀ b : Byte, s.sample.event = .accept b → isData b ∨ isRealtime b = true →
      t.parser.activeMessage = s.parser.activeMessage) ∧
    (s.sample.event = .idle → t.parser.activeMessage = s.parser.activeMessage)

/-- The slots of `data` are written only by an accepted data byte while `pendingCount > 0`, which goes to slot
`2 - pendingCount` alone, and by `Reset` (10_state section 1). -/
def Obligations.DataSlotsHaveTwoWriters : Prop :=
  ∀ s t : State, step s = .next t → ∀ slot : Fin 2,
    t.parser.getData slot ≠ s.parser.getData slot →
      (∃ b : Byte, s.sample.event = .accept b ∧ isData b ∧
        (slot.val : Int) = 2 - s.parser.pendingCount.toInt ∧ t.parser.getData slot = b) ∨
      (s.sample.event = .reset ∧ t.parser.getData slot = 0)

/-- R76 (an inference of the spec's own): the output is `Some` in exactly three situations. -/
def Obligations.OutputIsSomeInThreeSituations : Prop :=
  ∀ (b : Byte) (s t : State), perform (.accept b) s = .next t →
    (msgValid t.output = true ↔
      isRealtime b = true ∨ epc b = some .zero ∨ epc b = some .hold ∨
      (isData b ∧ s.parser.pendingCount = .one))

/-- R76 (an inference of the spec's own): the transition table over the modes, on states that meet R19. -/
def Obligations.ModesFollowTheTransitionTable : Prop :=
  ∀ (b : Byte) (s t : State), Inv s.parser → perform (.accept b) s = .next t →
    (isRealtime b = true → modeOf t.parser = modeOf s.parser) ∧
    (b = 0xF0 → modeOf t.parser = .hold) ∧
    (0xF4 ≤ b.toNat → b.toNat ≤ 0xF7 → modeOf t.parser = .rest) ∧
    (isNarrowStart b → b ≠ 0xF0 → b.toNat < 0xF4 → modeOf t.parser = .collect ∧ epc b = some t.parser.pendingCount) ∧
    (isData b → modeOf t.parser = modeOf s.parser)

/-! ## Behaviours of streams -/

/-- R49: after a status byte with a count of 2 every pair of data bytes, and after one with a count of 1 every data byte,
completes a message of that status byte, however many follow; a realtime byte changes nothing of it. -/
def Obligations.RunningStatusCompletesEveryGroup : Prop :=
  (∀ (s : State) (b : Byte) (groups : List (Byte × Byte)), epc b = some .two →
    (∀ g ∈ groups, isData g.1 ∧ isData g.2) →
      ∃ t : State,
        feed s (b :: groups.flatMap fun g => [g.1, g.2]) =
          some (t, .noMessage :: groups.flatMap fun _ => [.noMessage, .message b]) ∧
        t.parser.activeMessage = b ∧ t.parser.pendingCount = .two) ∧
  (∀ (s : State) (b : Byte) (group : List Byte), epc b = some .one → (∀ v ∈ group, isData v) →
    ∃ t : State,
      feed s (b :: group) = some (t, .noMessage :: group.map fun _ => .message b) ∧
      t.parser.activeMessage = b ∧ t.parser.pendingCount = .one) ∧
  (∀ (s : State) (r : Byte), isRealtime r = true →
    perform (.accept r) s = .next { s with output := .message r })

/-- R72: during a hold data bytes give `None` and realtime bytes themselves, and the parser does not change; the first
non-realtime message-start byte begins its own message, whatever it is, with `data` untouched, and ends the hold unless it is
0xF0; and a hold is entered only by accepting 0xF0 (on states that meet R19), which is reported. -/
def Obligations.HoldPassesUntilTheNextStart : Prop :=
  (∀ (s : State) (bytes : List Byte), s.parser.pendingCount = .hold →
    (∀ b ∈ bytes, isData b ∨ isRealtime b = true) →
      ∃ t : State, feed s bytes = some (t, bytes.map passOutput) ∧ t.parser = s.parser) ∧
  (∀ (s : State) (b : Byte), s.parser.pendingCount = .hold → isNarrowStart b →
    ∃ t : State, perform (.accept b) s = .next t ∧ t.parser.activeMessage = b ∧
      epc b = some t.parser.pendingCount ∧ t.parser.data0 = s.parser.data0 ∧ t.parser.data1 = s.parser.data1 ∧
      (sysexOpen t.parser = true ↔ b = 0xF0) ∧
      (b = 0xF0 ∨ 0xF4 ≤ b.toNat → t.output = .message b) ∧
      (b ≠ 0xF0 → b.toNat < 0xF4 → t.output = .noMessage)) ∧
  (∀ s t : State, Inv s.parser → step s = .next t →
    s.parser.pendingCount ≠ .hold → t.parser.pendingCount = .hold →
      s.sample.event = .accept 0xF0 ∧ t.output = .message 0xF0)

/-- `sysex_open` rises only in a step that accepts 0xF0 and falls only in one that accepts another non-realtime
message-start byte or resets, on states that meet R19 (R110, the spec's decision D10). -/
def Obligations.SysexOpenRisesAndFallsAsSpecified : Prop :=
  ∀ s t : State, Inv s.parser → step s = .next t →
    (sysexOpen s.parser = false → sysexOpen t.parser = true → s.sample.event = .accept 0xF0) ∧
    (sysexOpen s.parser = true → sysexOpen t.parser = false →
      s.sample.event = .reset ∨ ∃ b : Byte, s.sample.event = .accept b ∧ isNarrowStart b ∧ b ≠ 0xF0)

/-- At rest (after reset, or after 0xF4 to 0xF7) data bytes are lost and realtime bytes returned until the next status byte
(R132, R140, inferences of the spec's own). -/
def Obligations.RestDiscardsUntilTheNextStart : Prop :=
  ∀ (s : State) (bytes : List Byte), s.parser.pendingCount = .zero →
    (∀ b ∈ bytes, isData b ∨ isRealtime b = true) →
      ∃ t : State, feed s bytes = some (t, bytes.map passOutput) ∧ t.parser = s.parser

/-- R32 (an inference of the spec's own): a non-realtime message-start byte puts any two parsers, whatever their states, into the
same `activeMessage` and `pendingCount`, with the same output: what was in progress is abandoned without a trace. -/
def Obligations.StatusByteResynchronises : Prop :=
  ∀ (b : Byte) (s u : State), isNarrowStart b →
    ∃ t v : State, perform (.accept b) s = .next t ∧ perform (.accept b) u = .next v ∧
      t.parser.activeMessage = v.parser.activeMessage ∧ t.parser.pendingCount = v.parser.pendingCount ∧
      t.output = v.output

/-- No transition depends on the slots: two runs of one sequence of events that start with the same `activeMessage` and
`pendingCount`, whatever their slots, put out the same and end alike in those two (10_state section 1, `data`). -/
def Obligations.SlotsNeverInfluenceControl : Prop :=
  ∀ (s u t : State) (events : List Event) (outs : List Output),
    s.parser.activeMessage = u.parser.activeMessage → s.parser.pendingCount = u.parser.pendingCount →
    runEvents s events = some (t, outs) →
      ∃ v : State, runEvents u events = some (v, outs) ∧
        v.parser.activeMessage = t.parser.activeMessage ∧ v.parser.pendingCount = t.parser.pendingCount

/-- One step of the same: two states that agree on `activeMessage`, `pendingCount` and what stands at the ports agree on them
again after a step, and put out the same, whatever their slots. -/
def Obligations.EqualControlIsKeptByEveryStep : Prop :=
  ∀ s u t : State, s.parser.activeMessage = u.parser.activeMessage → s.parser.pendingCount = u.parser.pendingCount →
    s.inputs = u.inputs → step s = .next t →
      ∃ v : State, step u = .next v ∧ t.parser.activeMessage = v.parser.activeMessage ∧
        t.parser.pendingCount = v.parser.pendingCount ∧ t.inputs = v.inputs ∧ t.output = v.output

/-! ## Accessors and ports (45_accessors_and_reset, 92 D1) -/

/-- R107: the 14-bit value is the pseudocode's, and on slots with bit 7 clear it is `data[1] * 128 + data[0]`, at most 16383. -/
def Obligations.FourteenBitValueOfTheSlots : Prop :=
  (∀ p : Parser, value14 p = BitVec.ofNat 14 (p.data1.toNat <<< 7 ||| p.data0.toNat)) ∧
  (∀ p : Parser, p.data0 ≤ 0x7F#8 → p.data1 ≤ 0x7F#8 →
    (value14 p).toNat = p.data1.toNat * 128 + p.data0.toNat ∧ (value14 p).toNat ≤ 16383)

/-- The output ports show the step's output and the registers after it (D1, D4: the spec's decisions; log entry 8), and on
states that meet R19 their values are the ones the accessors' rules give. -/
def Obligations.OutputPortsShowTheRegisters : Prop :=
  ∀ s : State,
    (outPorts s).activeMessage = s.parser.activeMessage ∧ (outPorts s).data0 = s.parser.data0 ∧
    (outPorts s).data1 = s.parser.data1 ∧ (outPorts s).value14 = value14 s.parser ∧
    ((outPorts s).sysexOpen = true ↔ s.parser.pendingCount.toInt = -1) ∧
    ((outPorts s).msgValid = true ↔ ∃ c : Byte, s.output = .message c ∧ (outPorts s).msgCode = c) ∧
    ((outPorts s).msgValid = false → (outPorts s).msgCode = 0x00) ∧
    (Inv s.parser →
      ((outPorts s).sysexOpen = true ↔ (outPorts s).activeMessage = 0xF0) ∧
      ((outPorts s).activeMessage = 0 ∨ 0x80 ≤ (outPorts s).activeMessage.toNat ∧ (outPorts s).activeMessage.toNat ≤ 0xF7) ∧
      (outPorts s).data0.msb = false ∧ (outPorts s).data1.msb = false)

/-- R109 (the numbering of `type` is the spec's decision D11; log entry 8): from a state that meets R19 a step returns only
message-start bytes; such a code is viewed as realtime or system-common with its bits 2 to 0, or else as channel with its bits
6 to 4 and 3 to 0; and the view loses nothing. -/
def Obligations.DecodedViewChoosesTheFamilyAndLosesNothing : Prop :=
  (∀ (s t : State) (c : Byte), Inv s.parser → step s = .next t → t.output = .message c → isMessageStart c = true) ∧
  (∀ c : Byte, isMessageStart c = true →
    (isRealtime c = true → decodedView c = .realtime (c.extractLsb' 0 3)) ∧
    (isSystemCommon c = true → decodedView c = .systemCommon (c.extractLsb' 0 3)) ∧
    (isChannel c = true → decodedView c = .channel (c.extractLsb' 4 3) (c.extractLsb' 0 4)) ∧
    (decodedView c).code = c)

/-- R109, the sum type with the two raw bytes (log entry 8): after a step that returned a code the completed message is that code's
view with the two slots; after any other there is none. On a step from a state that meets R19 the code is recovered from it. -/
def Obligations.CompletedMessageIsTheViewAndTheSlots : Prop :=
  (∀ (s : State) (m : CompletedMessage), completedMessage s = some m ↔
    ∃ c : Byte, s.output = .message c ∧ m.view = decodedView c ∧ m.data0 = s.parser.data0 ∧ m.data1 = s.parser.data1) ∧
  (∀ (s t : State) (m : CompletedMessage), Inv s.parser → step s = .next t → completedMessage t = some m →
    t.output = .message m.view.code)

/-- R105, R106, R108, one step (log entry 8 for the ports): from a state that meets R19, an `Accept` that returns a code with a count
of 1 or 2 accepted a data byte; the accessors then show that code, its last parameter in `data1`, what `data0` held before (the
first parameter when the count is 2), and the count is re-armed. -/
def Obligations.CompletingStepFillsTheAccessors : Prop :=
  ∀ (b c : Byte) (n : PendingCount) (s t : State), Inv s.parser → perform (.accept b) s = .next t →
    t.output = .message c → epc c = some n → n = .one ∨ n = .two →
      isData b ∧ s.parser.pendingCount = .one ∧ activeMessagePort s.parser = c ∧
      t.parser = { activeMessage := c, pendingCount := n, data0 := s.parser.data0, data1 := b }

/-- R108 with R105 and R106: in a run from reset the validity window is open exactly when the accessors describe the message
returned last: its code, its last parameter in `data1`, and with two parameters its first in `data0`. -/
def Obligations.WindowIsOpenExactlyWhenAccessorsDescribe : Prop :=
  ∀ (events : List Event) (t : State) (outs : List Output), runEvents State.reset events = some (t, outs) →
    (windowOpen (events.zip outs).reverse = true ↔ Describes (events.zip outs).reverse t.parser)

/-- The storage code of `pendingCount` is its value modulo 4 and every code is one (R27, the spec's decision D5; log entry 8). -/
def Obligations.StorageCodeIsTheValueModulo4 : Prop :=
  (∀ n : PendingCount, (n.code.toNat : Int) = n.toInt % 4 ∧ PendingCount.ofCode n.code = n) ∧
  (∀ c : BitVec 2, (PendingCount.ofCode c).code = c)

/-- Instances share nothing (60_exceptions section 3, several streams): a step of one is that instance's own step, and every
other instance is unchanged. -/
def Obligations.InstancesShareNothing : Prop :=
  ∀ (system after : List State) (k : Nat), stepInstance system k = some after →
    (∀ j : Nat, j ≠ k → after[j]? = system[j]?) ∧
    ∃ s t : State, system[k]? = some s ∧ step s = .next t ∧ after[k]? = some t
end

