-- ==== Sys2Proof/Laws/Classifier.lean ====
section
/-! SUPPORT. Where `epc` has which value, and how it goes with the predicates. Facts about one byte are settled by trying all
256; everything else cites them. -/

namespace Sys2Proof.Machine

theorem epc_isSome_of_start : ∀ b : Byte, isMessageStart b = true → isRealtime b = false → (epc b).isSome = true := by
  decide +kernel

theorem epc_eq_none_of_data : ∀ b : Byte, isMessageStart b = false → epc b = none := by
  decide +kernel

theorem epc_eq_none_of_realtime : ∀ b : Byte, isRealtime b = true → epc b = none := by
  decide +kernel

theorem epc_eq_hold_iff : ∀ b : Byte, epc b = some .hold ↔ b = 0xF0 := by
  decide +kernel

theorem epc_eq_zero_iff : ∀ b : Byte, epc b = some .zero ↔ 0xF4 ≤ b.toNat ∧ b.toNat ≤ 0xF7 := by
  decide +kernel

theorem isMessageStart_of_realtime : ∀ b : Byte, isRealtime b = true → isMessageStart b = true := by
  decide +kernel

end Sys2Proof.Machine
end

