-- ==== Sys2Proof/Laws/State.lean ====
section
/-! SUPPORT. What each update of the state does to each field, once, so that no proof unfolds an update. -/

namespace Sys2Proof.Machine

variable (s : State) (p : Parser) (o : Output) (x : Sample) (b : Byte) (slot : Fin 2)

@[simp] theorem State.finish_parser : (s.finish p o).parser = p := rfl
@[simp] theorem State.finish_output : (s.finish p o).output = o := rfl
@[simp] theorem State.finish_inputs : (s.finish p o).inputs = s.inputs := rfl

@[simp] theorem State.advance_parser : s.advance.parser = s.parser := rfl
@[simp] theorem State.advance_output : s.advance.output = s.output := rfl
@[simp] theorem State.advance_inputs : s.advance.inputs = s.inputs.tail := rfl

@[simp] theorem State.present_parser : (s.present x).parser = s.parser := rfl
@[simp] theorem State.present_output : (s.present x).output = s.output := rfl
@[simp] theorem State.present_inputs : (s.present x).inputs = x :: s.inputs.tail := rfl
@[simp] theorem State.present_sample : (s.present x).sample = x := rfl
@[simp] theorem State.present_advance : (s.present x).advance = s.advance := rfl

@[simp] theorem State.reset_parser : State.reset.parser = Parser.reset := rfl
@[simp] theorem State.reset_inputs : State.reset.inputs = [] := rfl

@[simp] theorem Sample.event_ofByte : (Sample.ofByte b).event = .accept b := rfl
@[simp] theorem Sample.event_nothing : Sample.nothing.event = .idle := rfl

theorem Sample.event_ofEvent (e : Event) : (Sample.ofEvent e).event = e := by
  cases e <;> rfl

@[simp] theorem Parser.setData_activeMessage : (p.setData slot b).activeMessage = p.activeMessage := by
  unfold Parser.setData; split <;> rfl

@[simp] theorem Parser.setData_pendingCount : (p.setData slot b).pendingCount = p.pendingCount := by
  unfold Parser.setData; split <;> rfl

@[simp] theorem Parser.getData_setData_same : (p.setData slot b).getData slot = b := by
  match slot with
  | 0 => rfl
  | 1 => rfl

theorem Parser.getData_setData_other (other : Fin 2) (h : other ≠ slot) :
    (p.setData slot b).getData other = p.getData other := by
  match slot, other with
  | 0, 1 => rfl
  | 1, 0 => rfl
  | 0, 0 => exact absurd rfl h
  | 1, 1 => exact absurd rfl h

end Sys2Proof.Machine
end

