-- ==== Sys2Proof/Laws/Ops.lean ====
section
/-! SUPPORT. One lemma for each shared operation that says everything it can do, and what `exec`, `perform` and `step` are
made of. -/

namespace Sys2Proof.Machine

variable {b : Byte} {s t : State} {p : Parser}

/-! ## The steps of `accept` -/

/-- Steps 4 and 5, when they answer: the message is completed and the count re-armed, or nothing is reported. -/
theorem completionCheck_cases (h : completionCheck p s = .next t) :
    (p.pendingCount = .zero ∧ ∃ n, epc p.activeMessage = some n ∧
      t = s.finish { p with pendingCount := n } (.message p.activeMessage)) ∨
    (p.pendingCount ≠ .zero ∧ t = s.finish p .noMessage) := by
  unfold completionCheck at h
  cases hp : p.pendingCount with
  | zero =>
    rw [hp] at h
    cases he : epc p.activeMessage with
    | none => simp [he] at h
    | some n =>
      simp only [he, Host.Outcome.next.injEq] at h
      exact .inl ⟨rfl, n, rfl, h.symm⟩
  | hold | one | two =>
    simp only [hp, Host.Outcome.next.injEq] at h
    exact .inr ⟨by simp, h.symm⟩

/-- What a status byte with count `n` puts out: itself when no data byte is to come, else nothing yet. -/
def startOutput (b : Byte) : PendingCount → Output
  | .hold => .message b
  | .zero => .message b
  | .one => .noMessage
  | .two => .noMessage

/-- Step 2 on a byte whose count is `n`: it always answers, whatever was in progress. -/
theorem startMessage_of_epc {n : PendingCount} (h : epc b = some n) :
    startMessage b s =
      .next (s.finish { s.parser with activeMessage := b, pendingCount := n } (startOutput b n)) := by
  cases n <;> simp [startMessage, h, completionCheck, startOutput]

/-- Step 2, when it answers. -/
theorem startMessage_cases (h : startMessage b s = .next t) :
    ∃ n, epc b = some n ∧
      t = s.finish { s.parser with activeMessage := b, pendingCount := n } (startOutput b n) := by
  cases he : epc b with
  | none => simp [startMessage, he] at h
  | some n =>
    rw [startMessage_of_epc he, Host.Outcome.next.injEq] at h
    exact ⟨n, rfl, h.symm⟩

/-- Step 3, when it answers: discarded, stored as the first of two, or stored as the last with the message reported. -/
theorem dataByte_cases (h : dataByte b s = .next t) :
    ((s.parser.pendingCount = .zero ∨ s.parser.pendingCount = .hold) ∧ t = s.finish s.parser .noMessage) ∨
    (s.parser.pendingCount = .two ∧
      t = s.finish { s.parser with data0 := b, pendingCount := .one } .noMessage) ∨
    (s.parser.pendingCount = .one ∧ ∃ n, epc s.parser.activeMessage = some n ∧
      t = s.finish { s.parser with data1 := b, pendingCount := n } (.message s.parser.activeMessage)) := by
  unfold dataByte at h
  cases hp : s.parser.pendingCount with
  | zero | hold =>
    simp only [hp, PendingCount.take?, Host.Outcome.next.injEq] at h
    exact .inl ⟨by simp, h.symm⟩
  | two =>
    simp only [hp, PendingCount.take?] at h
    obtain ⟨h0, -⟩ | ⟨-, rfl⟩ := completionCheck_cases h
    · simp at h0
    · exact .inr (.inl ⟨rfl, rfl⟩)
  | one =>
    simp only [hp, PendingCount.take?] at h
    obtain ⟨-, n, he, rfl⟩ | ⟨h0, -⟩ := completionCheck_cases h
    · exact .inr (.inr ⟨rfl, n, by simpa using he, by simp [Parser.setData]⟩)
    · simp at h0

/-! ## `exec`, `perform`, `step` -/

/-- Every meaning is one of three operations on the byte of its class, by format. -/
theorem exec_by_format (i : Instr) (s : State) :
    exec i s =
      match i.format with
      | .r => realtimeReturn (encodeByte i) s
      | .s => startMessage (encodeByte i) s
      | .c => startMessage (encodeByte i) s
      | .d => dataByte (encodeByte i) s := by
  cases i <;> rfl

/-- An instruction that answers changes the parser and the output and nothing else. -/
theorem exec_finish {i : Instr} (h : exec i s = .next t) : t = s.finish t.parser t.output := by
  rw [exec_by_format] at h
  cases hf : i.format <;> simp only [hf] at h
  · obtain ⟨-, rfl⟩ | ⟨-, rfl⟩ | ⟨-, _, -, rfl⟩ := dataByte_cases h <;> rfl
  · obtain ⟨_, -, rfl⟩ := startMessage_cases h; rfl
  · obtain ⟨_, -, rfl⟩ := startMessage_cases h; rfl
  · cases h; rfl

/-- So does every event. -/
theorem perform_finish {e : Event} (h : perform e s = .next t) : t = s.finish t.parser t.output := by
  cases e with
  | accept b => exact exec_finish h
  | reset => cases h; rfl
  | idle => cases h; rfl

@[simp] theorem perform_reset : perform .reset s = .next (s.finish Parser.reset .quiet) := rfl
@[simp] theorem perform_idle : perform .idle s = .next (s.finish s.parser .quiet) := rfl

theorem step_eq_perform : step s = perform s.sample.event s.advance := rfl

@[simp] theorem runEvents_nil : runEvents s [] = some (s, []) := rfl

/-- A run of one event more, when it ends. -/
theorem runEvents_cons_cases {e : Event} {rest : List Event} {u : State} {outs : List Output}
    (h : runEvents s (e :: rest) = some (u, outs)) :
    ∃ t later, perform e s = .next t ∧ runEvents t rest = some (u, later) ∧ outs = t.output :: later := by
  rw [runEvents] at h
  cases hp : perform e s with
  | next t =>
    simp only [hp] at h
    cases hr : runEvents t rest with
    | none => simp [hr] at h
    | some r =>
      simp only [hr, Option.some.injEq, Prod.mk.injEq] at h
      exact ⟨t, r.2, rfl, by rw [hr, ← h.1], h.2.symm⟩
  | fault f => simp [hp] at h
  | refused r => simp [hp] at h

/-- A run of one event more, forwards. -/
theorem runEvents_cons {e : Event} {rest : List Event} {u : State} {later : List Output}
    (hp : perform e s = .next t) (hr : runEvents t rest = some (u, later)) :
    runEvents s (e :: rest) = some (u, t.output :: later) := by
  rw [runEvents]
  simp [hp, hr]

end Sys2Proof.Machine
end

