-- ==== Sys2Proof/Laws/PerInstr.lean ====
section
/-! SUPPORT. Per instruction: the byte of a well-formed instruction passes the mask tests of its own format (30_encoding R46). -/

namespace Sys2Proof.Laws.EncodedFormat

/-- The encoded byte is of the class's format. -/
abbrev Statement (i : Instr) : Prop := i.wellFormed = true → formatOf (encodeByte i) = i.format

theorem data (b : Byte) : Statement (.data b) := by
  have all : ∀ b : Byte, (Instr.data b).wellFormed = true → formatOf b = .d := by decide +kernel
  exact all b

theorem noteOff (ch : Channel) : Statement (.noteOff ch) := by
  have all : ∀ ch : Channel, formatOf (encodeByte (.noteOff ch)) = .c := by decide
  exact fun _ => all ch

theorem noteOn (ch : Channel) : Statement (.noteOn ch) := by
  have all : ∀ ch : Channel, formatOf (encodeByte (.noteOn ch)) = .c := by decide
  exact fun _ => all ch

theorem polyAftertouch (ch : Channel) : Statement (.polyAftertouch ch) := by
  have all : ∀ ch : Channel, formatOf (encodeByte (.polyAftertouch ch)) = .c := by decide
  exact fun _ => all ch

theorem controlChange (ch : Channel) : Statement (.controlChange ch) := by
  have all : ∀ ch : Channel, formatOf (encodeByte (.controlChange ch)) = .c := by decide
  exact fun _ => all ch

theorem programChange (ch : Channel) : Statement (.programChange ch) := by
  have all : ∀ ch : Channel, formatOf (encodeByte (.programChange ch)) = .c := by decide
  exact fun _ => all ch

theorem channelPressure (ch : Channel) : Statement (.channelPressure ch) := by
  have all : ∀ ch : Channel, formatOf (encodeByte (.channelPressure ch)) = .c := by decide
  exact fun _ => all ch

theorem pitchBend (ch : Channel) : Statement (.pitchBend ch) := by
  have all : ∀ ch : Channel, formatOf (encodeByte (.pitchBend ch)) = .c := by decide
  exact fun _ => all ch

theorem sysex : Statement .sysex := by decide

theorem mtcQuarterFrame : Statement .mtcQuarterFrame := by decide

theorem songPosition : Statement .songPosition := by decide

theorem songSelect : Statement .songSelect := by decide

theorem undefF4 : Statement .undefF4 := by decide

theorem undefF5 : Statement .undefF5 := by decide

theorem tuneRequest : Statement .tuneRequest := by decide

theorem endex : Statement .endex := by decide

theorem rtF8 : Statement .rtF8 := by decide

theorem rtF9 : Statement .rtF9 := by decide

theorem rtFA : Statement .rtFA := by decide

theorem rtFB : Statement .rtFB := by decide

theorem rtFC : Statement .rtFC := by decide

theorem rtFD : Statement .rtFD := by decide

theorem rtFE : Statement .rtFE := by decide

theorem rtFF : Statement .rtFF := by decide

end Sys2Proof.Laws.EncodedFormat
end

