-- ==== Sys2Proof/Laws/Run.lean ====
section
/-! SUPPORT. The host's run, one step at a time. -/

namespace Sys2Proof.Machine

variable {M : Host.Core} {s t : M.State} {r : M.Refusal}

theorem run_succ_of_next (h : M.step s = .next t) (k : Nat) : M.run (k + 1) s = M.run k t := by
  simp [Host.Core.run, h]

theorem run_succ_of_refused (h : M.step s = .refused r) (k : Nat) : M.run (k + 1) s = .refused r := by
  simp [Host.Core.run, h]

end Sys2Proof.Machine
end

