-- ==== Sys2Proof/Tests/Slice0.lean ====
section
/-! SUPPORT. Tests. Every expected value is the spec's: bytes from the pattern column of 30_encoding R50, states and outputs from
the tables of 95_test_vectors. Each test is one decoding or one step; the witnesses show that the hypotheses of the statements
can be met, clause by clause, at the ends of their ranges. -/

namespace Sys2Proof.Tests

open Sys2Proof Sys2Proof.Machine Sys2Proof.Safety

/-- A state written as 95_test_vectors writes it: `am=.. pc=.. d0=.. d1=..`. -/
def st (am : Byte) (pc : PendingCount) (d0 d1 : Byte) : State :=
  { parser := { activeMessage := am, pendingCount := pc, data0 := d0, data1 := d1 }, output := .quiet, inputs := [] }

/-- The same with the step's output. -/
def out (s : State) (o : Output) : State := { s with output := o }

/-- The same with samples at the input ports. -/
def withInputs (s : State) (xs : List Sample) : State := { s with inputs := xs }

/-! ## WellFormed: the one check, and a term it refuses -/

theorem test_wellFormed_refuses_data_with_bit7 : (Instr.data 0x80).wellFormed = false := by decide
theorem test_wellFormed_accepts_data : (Instr.data 0x7F).wellFormed = true := by decide

/-! ## Decoding: the pattern of each class (R50), channel bits written out -/

theorem test_decode_data : decode [0b01010101] = .ok (.data 0x55, []) := by decide
theorem test_decode_noteOff : decode [0b10000001] = .ok (.noteOff 1, []) := by decide
theorem test_decode_noteOn : decode [0b10010010] = .ok (.noteOn 2, []) := by decide
theorem test_decode_polyAftertouch : decode [0b10100100] = .ok (.polyAftertouch 4, []) := by decide
theorem test_decode_controlChange : decode [0b10111000] = .ok (.controlChange 8, []) := by decide
theorem test_decode_programChange : decode [0b11000011] = .ok (.programChange 3, []) := by decide
theorem test_decode_channelPressure : decode [0b11010111] = .ok (.channelPressure 7, []) := by decide
theorem test_decode_pitchBend : decode [0b11101110] = .ok (.pitchBend 14, []) := by decide
theorem test_decode_sysex : decode [0b11110000] = .ok (.sysex, []) := by decide
theorem test_decode_mtcQuarterFrame : decode [0b11110001] = .ok (.mtcQuarterFrame, []) := by decide
theorem test_decode_songPosition : decode [0b11110010] = .ok (.songPosition, []) := by decide
theorem test_decode_songSelect : decode [0b11110011] = .ok (.songSelect, []) := by decide
theorem test_decode_undefF4 : decode [0b11110100] = .ok (.undefF4, []) := by decide
theorem test_decode_undefF5 : decode [0b11110101] = .ok (.undefF5, []) := by decide
theorem test_decode_tuneRequest : decode [0b11110110] = .ok (.tuneRequest, []) := by decide
theorem test_decode_endex : decode [0b11110111] = .ok (.endex, []) := by decide
theorem test_decode_rtF8 : decode [0b11111000] = .ok (.rtF8, []) := by decide
theorem test_decode_rtF9 : decode [0b11111001] = .ok (.rtF9, []) := by decide
theorem test_decode_rtFA : decode [0b11111010] = .ok (.rtFA, []) := by decide
theorem test_decode_rtFB : decode [0b11111011] = .ok (.rtFB, []) := by decide
theorem test_decode_rtFC : decode [0b11111100] = .ok (.rtFC, []) := by decide
theorem test_decode_rtFD : decode [0b11111101] = .ok (.rtFD, []) := by decide
theorem test_decode_rtFE : decode [0b11111110] = .ok (.rtFE, []) := by decide
theorem test_decode_rtFF : decode [0b11111111] = .ok (.rtFF, []) := by decide

theorem test_decode_nothing : decode [] = .error .noByte := by decide
theorem test_decode_leaves_the_rest : decode [0x90, 0x40] = .ok (.noteOn 0, [0x40]) := by decide
theorem test_decodeTableWord : decodeTableWord 8 0xC2 = some (.programChange 2) := by decide

/-! ## One step of each class (95 sections 2.2 to 2.5) -/

/-- V-D2. -/
theorem test_data_completes_and_rearms :
    nextOf (exec (.data 0x7F) (st 0x90 .one 0x11 0x22)) = some (out (st 0x90 .two 0x11 0x7F) (.message 0x90)) := by decide
/-- V-D3: the parameter of a 1-parameter message is in `data[1]`. -/
theorem test_data_of_one_parameter_message :
    nextOf (exec (.data 0x33) (st 0xC5 .one 0x11 0x22)) = some (out (st 0xC5 .one 0x11 0x33) (.message 0xC5)) := by decide

/-- 95 section 2.3: from inside a hold. -/
theorem test_noteOff : nextOf (exec (.noteOff 0) (st 0xF0 .hold 0x11 0x22)) = some (out (st 0x80 .two 0x11 0x22) .noMessage) := by decide
theorem test_noteOn : nextOf (exec (.noteOn 15) (st 0xF0 .hold 0x11 0x22)) = some (out (st 0x9F .two 0x11 0x22) .noMessage) := by decide
theorem test_polyAftertouch :
    nextOf (exec (.polyAftertouch 15) (st 0xF0 .hold 0x11 0x22)) = some (out (st 0xAF .two 0x11 0x22) .noMessage) := by decide
theorem test_controlChange :
    nextOf (exec (.controlChange 0) (st 0xF0 .hold 0x11 0x22)) = some (out (st 0xB0 .two 0x11 0x22) .noMessage) := by decide
theorem test_programChange :
    nextOf (exec (.programChange 15) (st 0xF0 .hold 0x11 0x22)) = some (out (st 0xCF .one 0x11 0x22) .noMessage) := by decide
/-- The count is 1 (90_conflicts C4). -/
theorem test_channelPressure :
    nextOf (exec (.channelPressure 15) (st 0xF0 .hold 0x11 0x22)) = some (out (st 0xDF .one 0x11 0x22) .noMessage) := by decide
theorem test_pitchBend :
    nextOf (exec (.pitchBend 15) (st 0xF0 .hold 0x11 0x22)) = some (out (st 0xEF .two 0x11 0x22) .noMessage) := by decide

/-- 95 section 2.4: a half-collected note-on is abandoned. -/
theorem test_sysex : nextOf (exec .sysex (st 0x90 .one 0x11 0x22)) = some (out (st 0xF0 .hold 0x11 0x22) (.message 0xF0)) := by decide
theorem test_mtcQuarterFrame :
    nextOf (exec .mtcQuarterFrame (st 0x90 .one 0x11 0x22)) = some (out (st 0xF1 .one 0x11 0x22) .noMessage) := by decide
theorem test_songPosition :
    nextOf (exec .songPosition (st 0x90 .one 0x11 0x22)) = some (out (st 0xF2 .two 0x11 0x22) .noMessage) := by decide
theorem test_songSelect :
    nextOf (exec .songSelect (st 0x90 .one 0x11 0x22)) = some (out (st 0xF3 .one 0x11 0x22) .noMessage) := by decide
theorem test_undefF4 : nextOf (exec .undefF4 (st 0x90 .one 0x11 0x22)) = some (out (st 0xF4 .zero 0x11 0x22) (.message 0xF4)) := by decide
theorem test_undefF5 : nextOf (exec .undefF5 (st 0x90 .one 0x11 0x22)) = some (out (st 0xF5 .zero 0x11 0x22) (.message 0xF5)) := by decide
theorem test_tuneRequest :
    nextOf (exec .tuneRequest (st 0x90 .one 0x11 0x22)) = some (out (st 0xF6 .zero 0x11 0x22) (.message 0xF6)) := by decide
theorem test_endex : nextOf (exec .endex (st 0x90 .one 0x11 0x22)) = some (out (st 0xF7 .zero 0x11 0x22) (.message 0xF7)) := by decide

/-- 95 section 2.5: nothing changes but the output. -/
theorem test_rtF8 : nextOf (exec .rtF8 (st 0x90 .one 0x11 0x22)) = some (out (st 0x90 .one 0x11 0x22) (.message 0xF8)) := by decide
theorem test_rtF9 : nextOf (exec .rtF9 (st 0x90 .one 0x11 0x22)) = some (out (st 0x90 .one 0x11 0x22) (.message 0xF9)) := by decide
theorem test_rtFA : nextOf (exec .rtFA (st 0x90 .one 0x11 0x22)) = some (out (st 0x90 .one 0x11 0x22) (.message 0xFA)) := by decide
theorem test_rtFB : nextOf (exec .rtFB (st 0x90 .one 0x11 0x22)) = some (out (st 0x90 .one 0x11 0x22) (.message 0xFB)) := by decide
theorem test_rtFC : nextOf (exec .rtFC (st 0x90 .one 0x11 0x22)) = some (out (st 0x90 .one 0x11 0x22) (.message 0xFC)) := by decide
theorem test_rtFD : nextOf (exec .rtFD (st 0x90 .one 0x11 0x22)) = some (out (st 0x90 .one 0x11 0x22) (.message 0xFD)) := by decide
theorem test_rtFE : nextOf (exec .rtFE (st 0x90 .one 0x11 0x22)) = some (out (st 0x90 .one 0x11 0x22) (.message 0xFE)) := by decide
/-- 0xFF does not reset (95 section 4, variant 10). -/
theorem test_rtFF : nextOf (exec .rtFF (st 0x90 .one 0x40 0x00)) = some (out (st 0x90 .one 0x40 0x00) (.message 0xFF)) := by decide

/-! ## Classifier, accessors, decoded view (95 sections 2.1 and 2.6) -/

theorem test_epc_table :
    [0x00, 0x7F, 0x80, 0xBF, 0xC0, 0xDF, 0xE0, 0xEF, 0xF0, 0xF1, 0xF2, 0xF3, 0xF4, 0xF7, 0xF8, 0xFF].map epc =
      [none, none, some .two, some .two, some .one, some .one, some .two, some .two, some .hold, some .one, some .two,
        some .one, some .zero, some .zero, none, none] := by decide

theorem test_predicate_corners :
    isRealtime 0xF7 = false ∧ isRealtime 0x78 = false ∧ isSystemCommon 0xEF = false ∧ isSystemCommon 0x70 = false ∧
    isChannel 0x7F = false ∧ isChannel 0x80 = true ∧ isChannel 0xEF = true ∧ isChannel 0xF0 = false := by decide

theorem test_value14 :
    [(0x00, 0x00), (0x7F, 0x00), (0x00, 0x01), (0x01, 0x01), (0x00, 0x40), (0x7F, 0x7F), (0x40, 0x7F), (0x10, 0x02)].map
      (fun d => (value14 (st 0x90 .two d.1 d.2).parser).toNat) = [0, 127, 128, 129, 8192, 16383, 16320, 272] := by decide

theorem test_decodedView :
    decodedView 0x93 = .channel 1 3 ∧ decodedView 0xEF = .channel 6 15 ∧ decodedView 0x80 = .channel 0 0 ∧
    decodedView 0xF0 = .systemCommon 0 ∧ decodedView 0xF7 = .systemCommon 7 ∧ decodedView 0xF8 = .realtime 0 ∧
    decodedView 0xFF = .realtime 7 := by decide

/-- R110: after the step that accepts 0xF0 the gate is open; D4: `msg_code` is the code. -/
theorem test_outPorts :
    outPorts (out (st 0xF0 .hold 0x00 0x00) (.message 0xF0)) =
      { msgValid := true, msgCode := 0xF0, activeMessage := 0xF0, data0 := 0, data1 := 0, value14 := 0, sysexOpen := true } := by
  decide

/-- R109, on the outcome of `C2 05` (R82). -/
theorem test_completedMessage :
    completedMessage (out (st 0xC2 .one 0x00 0x05) (.message 0xC2)) =
      some { view := .channel 4 2, data0 := 0x00, data1 := 0x05 } := by decide

/-! ## The step: reset, idle, fetch -/

/-- R118: reset and a byte together. -/
theorem test_step_reset_wins :
    nextOf (step (withInputs (st 0x90 .one 0x40 0x22) [{ reset := true, inValid := true, inByte := 0x7F }])) =
      some (st 0x00 .zero 0x00 0x00) := by decide

/-- R112: nothing presented. -/
theorem test_step_idle :
    nextOf (step (out (st 0x90 .one 0x40 0x22) .noMessage)) = some (st 0x90 .one 0x40 0x22) := by decide

/-- From reset, the byte 0x90 at the ports is the next instruction. -/
theorem test_step_fetches :
    nextOf (step (State.reset.withFetchWord 8 0x90)) = some (out (st 0x90 .two 0x00 0x00) .noMessage) := by decide

/-! ## Witnesses of the statements' hypotheses -/

/-- Meets R19: a note-on waiting for its second parameter. -/
def half : State := st 0x90 .one 0x40 0x22

theorem witness_DecodeOfEncodeIsTheInstruction :
    (Instr.data 0x7F).wellFormed = true ∧ (Instr.noteOff 15).wellFormed = true ∧ Instr.rtFF.wellFormed = true := by decide
theorem witness_OpcodeTableAgreesWithDecoder :
    opcodeTable[0]? = some ⟨"DATA", 0x00, 0x80, .d⟩ ∧ rowMatches ⟨"DATA", 0x00, 0x80, .d⟩ 0x7F = true ∧
    opcodeTable[23]? = some ⟨"RT_FF", 0xFF, 0xFF, .r⟩ := by decide
theorem witness_DecodedFormatFollowsTheMaskTests :
    (0xF8#8 &&& 0xF8 = 0xF8) ∧ (0xF7#8 &&& 0xF8 ≠ 0xF8 ∧ 0xF7#8 &&& 0x80 = 0x80 ∧ 0xF7#8 &&& 0xF8 = 0xF0) ∧
    (0xEF#8 &&& 0xF8 ≠ 0xF8 ∧ 0xEF#8 &&& 0x80 = 0x80 ∧ 0xEF#8 &&& 0xF8 ≠ 0xF0) ∧
    (0x7F#8 &&& 0xF8 ≠ 0xF8 ∧ 0x7F#8 &&& 0x80 ≠ 0x80) := by decide
theorem witness_ClassifierPredicatesAreRanges : isRealtime 0xF8 = true := by decide
theorem witness_ParameterCountIsDefinedOnItsDomain :
    isSystemCommon 0xF0 = true ∧ isSystemCommon 0xF7 = true ∧ (0x80 ≤ (0x80#8).toNat ∧ (0xEF#8).toNat ≤ 0xEF) ∧
    (6 : Selector) ≠ 7 := by decide
theorem witness_MessageLengthFollowsFromTheStatusByte :
    [0x80, 0xBF, 0xE0, 0xEF, 0xF2, 0xC0, 0xDF, 0xF1, 0xF3, 0xF4, 0xF7, 0xF0, 0xF8, 0xFF, 0x7F, 0x00].map messageLength =
      [some (.bytes 3), some (.bytes 3), some (.bytes 3), some (.bytes 3), some (.bytes 3), some (.bytes 2), some (.bytes 2),
        some (.bytes 2), some (.bytes 2), some (.bytes 1), some (.bytes 1), some .indefinite, some (.bytes 1),
        some (.bytes 1), none, none] := by decide
theorem witness_EveryStepKeepsTheInvariant :
    Inv half.parser ∧ nextOf (step (half.present (Sample.ofByte 0x7F))) = some (out (st 0x90 .two 0x40 0x7F) (.message 0x90)) := by
  decide
theorem witness_NoStepFaultsOrSticks : Inv half.parser ∧ Inv (st 0xF0 .hold 0x7F 0x7F).parser := by decide
theorem witness_ReachableParsersAreExactlyTheShape :
    ReachableShape half.parser ∧ ReachableShape State.reset.parser ∧ ¬ ReachableShape (st 0x00 .zero 0x01 0x00).parser :=
  ⟨by decide, by decide, by decide⟩
theorem witness_OnlyAnUndefinedCountRefuses :
    exec (.data 0x00) (st 0x00 .one 0x00 0x00) = .refused .epcOutsideDomain ∧
    epc (st 0x00 .one 0x00 0x00).parser.activeMessage = none := ⟨rfl, by decide⟩
theorem witness_StepRunsTheDecodedByte :
    (half.present (Sample.ofByte 0xC0)).sample.reset = false ∧ (half.present (Sample.ofByte 0xC0)).sample.inValid = true ∧
    decode [(half.present (Sample.ofByte 0xC0)).sample.inByte] = .ok (.programChange 0, []) ∧
    (Instr.programChange 0).wellFormed = true := by decide
theorem witness_FetchWordIsTheNextInstruction : decodeTableWord 8 0xFF = some .rtFF := by decide
theorem witness_ResetEventGivesAFreshInstance : nextOf (perform .reset half) = some (st 0x00 .zero 0x00 0x00) := by decide
theorem witness_ResetWinsOverAByte :
    (withInputs half [{ reset := true, inValid := true, inByte := 0x90 }]).inputs =
      { reset := true, inValid := true, inByte := 0x90 } :: [] := by decide
theorem witness_IdleChangesNoRegister :
    (half.sample.reset = false ∧ half.sample.inValid = false) ∧
    runEvents half [.accept 0xF8] = some (out half (.message 0xF8), [.message 0xF8]) := by decide
theorem witness_HostRunPerformsTheEventsInOrder :
    (withInputs half [Sample.ofByte 0xF8, Sample.nothing]).inputs =
      [Event.accept 0xF8].map Sample.ofEvent ++ [Sample.nothing] ∧
    runEvents (withInputs half [Sample.nothing]) [.accept 0xF8] =
      some (out (withInputs half [Sample.nothing]) (.message 0xF8), [.message 0xF8]) := by decide
theorem witness_RealtimeBytesNeverDisturbAStream :
    feed half [0xF8, 0x7F] =
      some (out (st 0x90 .two 0x40 0x7F) (.message 0x90), [.message 0xF8, .message 0x90]) ∧
    (0xF8, Output.message 0xF8) ∈ [(0xF8#8), 0x7F].zip [Output.message 0xF8, .message 0x90] ∧ isRealtime 0xF8 = true := by decide
/-- For TwoParameterChannelMessages, OneParameterChannelMessages, OneParameterSystemCommon and ZeroParameterSystemCommon, whose only
hypotheses are that the bytes fed after the status byte are data bytes. -/
theorem witness_messages_have_data_bytes : isData 0x00 ∧ isData 0x7F := by decide
theorem witness_PitchBendReadsFourteenBits :
    feed State.reset [0xE0, 0x00, 0x40] =
      some (out (st 0xE0 .two 0x00 0x40) (.message 0xE0), [.noMessage, .noMessage, .message 0xE0]) := by decide
theorem witness_SysexOpensTheHoldUntilEndex :
    nextOf (exec .sysex half) = some (out (st 0xF0 .hold 0x40 0x22) (.message 0xF0)) ∧ ∀ b ∈ [(0x00#8), 0x7F], isData b := by decide
theorem witness_SongPositionMessage : isData 0x10 ∧ isRealtime 0xFC = true ∧ isData 0x02 := by decide
theorem witness_DataByteIsStoredCompletedOrDiscarded :
    isData 0x7F ∧ (st 0x90 .two 0x11 0x22).parser.pendingCount = .two ∧
    (half.parser.pendingCount = .one ∧ epc half.parser.activeMessage = some .two) ∧
    ((st 0xC5 .one 0x11 0x22).parser.pendingCount = .one ∧ epc (st 0xC5 .one 0x11 0x22).parser.activeMessage = some .one) ∧
    (st 0xF6 .zero 0x11 0x22).parser.pendingCount = .zero ∧ (st 0xF0 .hold 0x11 0x22).parser.pendingCount = .hold := by decide
theorem witness_SlotIsTwoMinusPendingCount :
    PendingCount.take? .two = some (0, .one) ∧ PendingCount.take? .one = some (1, .zero) := by decide
theorem witness_DiscardHappensInSixControlStates :
    Inv (st 0xF4 .zero 0x11 0x22).parser ∧ Inv (st 0xF7 .zero 0x11 0x22).parser ∧ Inv (st 0xF0 .hold 0x11 0x22).parser ∧
    Inv half.parser ∧
    nextOf (exec (.data 0x55) (st 0xF6 .zero 0x11 0x22)) = some (out (st 0xF6 .zero 0x11 0x22) .noMessage) :=
  ⟨by decide, by decide, by decide, by decide, by decide⟩
theorem witness_FrameOfEachFormat :
    nextOf (exec .rtF8 half) = some (out half (.message 0xF8)) ∧ Instr.rtF8.format = .r ∧
    nextOf (exec .endex half) = some (out (st 0xF7 .zero 0x40 0x22) (.message 0xF7)) ∧ Instr.endex.format = .s ∧
    nextOf (exec (.noteOn 0) half) = some (out (st 0x90 .two 0x40 0x22) .noMessage) ∧ (Instr.noteOn 0).format = .c ∧
    nextOf (exec (.data 0x01) (st 0x90 .two 0x40 0x22)) = some (out (st 0x90 .one 0x01 0x22) .noMessage) ∧
    nextOf (exec (.data 0x01) half) = some (out (st 0x90 .two 0x40 0x01) (.message 0x90)) ∧
    nextOf (exec (.data 0x01) (st 0xF0 .hold 0x40 0x22)) = some (out (st 0xF0 .hold 0x40 0x22) .noMessage) ∧
    (Instr.data 0x01).format = .d := by decide
theorem witness_ActiveMessageIsOverwrittenOnlyByStarts :
    ((half.present (Sample.ofByte 0x80)).sample.event = .accept 0x80 ∧ isNarrowStart 0x80 ∧
      nextOf (step (half.present (Sample.ofByte 0x80))) = some (out (st 0x80 .two 0x40 0x22) .noMessage)) ∧
    ((half.present (Sample.ofByte 0xF8)).sample.event = .accept 0xF8 ∧ isRealtime 0xF8 = true ∧
      nextOf (step (half.present (Sample.ofByte 0xF8))) = some (out half (.message 0xF8))) ∧
    (half.sample.event = .idle ∧ nextOf (step half) = some half) := by decide
theorem witness_DataSlotsHaveTwoWriters :
    nextOf (step (half.present (Sample.ofByte 0x7F))) = some (out (st 0x90 .two 0x40 0x7F) (.message 0x90)) ∧
    (st 0x90 .two 0x40 0x7F).parser.getData 1 ≠ half.parser.getData 1 ∧
    nextOf (step (half.present (Sample.ofEvent .reset))) = some (st 0x00 .zero 0x00 0x00) ∧
    (st 0x00 .zero 0x00 0x00).parser.getData 0 ≠ half.parser.getData 0 := by decide
theorem witness_OutputIsSomeInThreeSituations :
    nextOf (perform (.accept 0x7F) half) = some (out (st 0x90 .two 0x40 0x7F) (.message 0x90)) ∧
    nextOf (perform (.accept 0x80) half) = some (out (st 0x80 .two 0x40 0x22) .noMessage) := by decide
theorem witness_ModesFollowTheTransitionTable :
    Inv half.parser ∧ isRealtime 0xFF = true ∧ isNarrowStart 0xF3 ∧ (0xF3#8).toNat < 0xF4 ∧ isNarrowStart 0x80 ∧ isData 0x7F ∧
    nextOf (perform (.accept 0xF0) half) = some (out (st 0xF0 .hold 0x40 0x22) (.message 0xF0)) ∧
    nextOf (perform (.accept 0xF4) half) = some (out (st 0xF4 .zero 0x40 0x22) (.message 0xF4)) :=
  ⟨by decide, by decide, by decide, by decide, by decide, by decide, by decide, by decide⟩
theorem witness_RunningStatusCompletesEveryGroup :
    epc 0xF2 = some .two ∧ (∀ g ∈ [((0x00#8), (0x7F#8))], isData g.1 ∧ isData g.2) ∧ epc 0xF3 = some .one ∧
    (∀ v ∈ [(0x01#8), 0x02], isData v) ∧ isRealtime 0xFE = true := by
  refine ⟨by decide, ?_, by decide, by decide, by decide⟩
  intro g hg
  rw [List.mem_singleton.1 hg]
  decide
theorem witness_HoldPassesUntilTheNextStart :
    (st 0xF0 .hold 0x11 0x22).parser.pendingCount = .hold ∧
    (∀ b ∈ [(0x01#8), 0xF8, 0x7F, 0xFF], isData b ∨ isRealtime b = true) ∧
    isNarrowStart 0xF0 ∧ isNarrowStart 0xF7 ∧ isNarrowStart 0x80 ∧
    (Inv half.parser ∧ half.parser.pendingCount ≠ .hold ∧
      nextOf (step (half.present (Sample.ofByte 0xF0))) = some (out (st 0xF0 .hold 0x40 0x22) (.message 0xF0))) := by decide
theorem witness_SysexOpenRisesAndFallsAsSpecified :
    (Inv half.parser ∧ sysexOpen half.parser = false ∧
      nextOf (step (half.present (Sample.ofByte 0xF0))) = some (out (st 0xF0 .hold 0x40 0x22) (.message 0xF0)) ∧
      sysexOpen (st 0xF0 .hold 0x40 0x22).parser = true) ∧
    (Inv (st 0xF0 .hold 0x40 0x22).parser ∧
      nextOf (step ((st 0xF0 .hold 0x40 0x22).present (Sample.ofByte 0xF7))) =
        some (out (st 0xF7 .zero 0x40 0x22) (.message 0xF7)) ∧
      sysexOpen (st 0xF7 .zero 0x40 0x22).parser = false) := by decide
theorem witness_RestDiscardsUntilTheNextStart :
    (st 0xF6 .zero 0x11 0x22).parser.pendingCount = .zero ∧
    (∀ b ∈ [(0x00#8), 0x7F, 0xF8, 0xFF], isData b ∨ isRealtime b = true) := by decide
theorem witness_StatusByteResynchronises : isNarrowStart 0x80 ∧ isNarrowStart 0xF7 := by decide
theorem witness_SlotsNeverInfluenceControl :
    half.parser.activeMessage = (st 0x90 .one 0x01 0x02).parser.activeMessage ∧
    half.parser.pendingCount = (st 0x90 .one 0x01 0x02).parser.pendingCount ∧
    runEvents half [.accept 0x7F] = some (out (st 0x90 .two 0x40 0x7F) (.message 0x90), [.message 0x90]) := by decide
theorem witness_FourteenBitValueOfTheSlots :
    (st 0xE0 .two 0x7F 0x7F).parser.data0 ≤ 0x7F#8 ∧ (st 0xE0 .two 0x7F 0x7F).parser.data1 ≤ 0x7F#8 := by decide
theorem witness_OutputPortsShowTheRegisters :
    Inv half.parser ∧ (outPorts half).msgValid = false ∧ (outPorts (out half (.message 0xF8))).msgValid = true := by decide
theorem witness_DecodedViewChoosesTheFamilyAndLosesNothing :
    Inv half.parser ∧ nextOf (step (half.present (Sample.ofByte 0x7F))) = some (out (st 0x90 .two 0x40 0x7F) (.message 0x90)) ∧
    (isChannel 0x80 = true ∧ isChannel 0xEF = true) ∧ (isSystemCommon 0xF0 = true ∧ isSystemCommon 0xF7 = true) ∧
    (isRealtime 0xF8 = true ∧ isRealtime 0xFF = true) ∧ isMessageStart 0x80 = true ∧ isMessageStart 0xFF = true := by decide
theorem witness_CompletedMessageIsTheViewAndTheSlots :
    Inv half.parser ∧ nextOf (step (half.present (Sample.ofByte 0x7F))) = some (out (st 0x90 .two 0x40 0x7F) (.message 0x90)) ∧
    completedMessage (out (st 0x90 .two 0x40 0x7F) (.message 0x90)) =
      some { view := .channel 1 0, data0 := 0x40, data1 := 0x7F } := by decide
theorem witness_CompletingStepFillsTheAccessors :
    (Inv half.parser ∧ nextOf (perform (.accept 0x7F) half) = some (out (st 0x90 .two 0x40 0x7F) (.message 0x90)) ∧
      epc 0x90 = some .two) ∧
    (Inv (st 0xC5 .one 0x11 0x22).parser ∧
      nextOf (perform (.accept 0x33) (st 0xC5 .one 0x11 0x22)) = some (out (st 0xC5 .one 0x11 0x33) (.message 0xC5)) ∧
      epc 0xC5 = some .one) := by decide
/-- The window is open after `C2 05` and an idle step, and not after a realtime byte more. -/
theorem witness_WindowIsOpenExactlyWhenAccessorsDescribe :
    runEvents State.reset [.accept 0xC2, .accept 0x05, .idle] =
      some (st 0xC2 .one 0x00 0x05, [.noMessage, .message 0xC2, .quiet]) ∧
    windowOpen [(.idle, .quiet), (.accept 0x05, .message 0xC2), (.accept 0xC2, .noMessage)] = true ∧
    windowOpen [(.accept 0xF8, .message 0xF8), (.accept 0x05, .message 0xC2), (.accept 0xC2, .noMessage)] = false := by
  decide
/-- R105: after `90 40 7F` the accessors describe the message, both parameters. -/
theorem witness_Describes_two_parameters :
    Describes [(.accept 0x7F, .message 0x90), (.accept 0x40, .noMessage), (.accept 0x90, .noMessage)]
      (st 0x90 .two 0x40 0x7F).parser :=
  ⟨0x7F, [0x40, 0x90], by decide, by decide, by decide, by decide, fun _ => ⟨0x40, [0x90], by decide, by decide, by decide⟩⟩
theorem witness_EveryStepKeepsTheReachableShape :
    ReachableShape State.reset.parser ∧
    nextOf (step (State.reset.present (Sample.ofByte 0x55))) = some (out State.reset .noMessage) :=
  ⟨by decide, by decide⟩
theorem witness_EqualControlIsKeptByEveryStep :
    half.parser.activeMessage = (st 0x90 .one 0x01 0x02).parser.activeMessage ∧
    half.parser.pendingCount = (st 0x90 .one 0x01 0x02).parser.pendingCount ∧
    (half.present (Sample.ofByte 0x7F)).inputs = ((st 0x90 .one 0x01 0x02).present (Sample.ofByte 0x7F)).inputs ∧
    nextOf (step (half.present (Sample.ofByte 0x7F))) = some (out (st 0x90 .two 0x40 0x7F) (.message 0x90)) := by decide
theorem witness_InstancesShareNothing :
    stepInstance [State.reset, half.present (Sample.ofByte 0x7F)] 1 =
      some [State.reset, out (st 0x90 .two 0x40 0x7F) (.message 0x90)] ∧ (0 : Nat) ≠ 1 := by decide

end Sys2Proof.Tests
end

section
/-! The state and its reset (10_state): what an accepted byte does, by its kind, and what that does to `activeMessage`. -/

namespace Sys2Proof.Machine

open Sys2Proof.Safety

variable {b : Byte} {s t : State}

/-! ## The class of a byte, by its kind -/

theorem encodeByte_decodeByte : ∀ b : Byte, encodeByte (decodeByte b) = b := by
  decide +kernel

theorem format_decodeByte_of_data : ∀ b : Byte, isData b → (decodeByte b).format = .d := by
  decide +kernel

theorem format_decodeByte_of_realtime : ∀ b : Byte, isRealtime b = true → (decodeByte b).format = .r := by
  decide +kernel

theorem format_decodeByte_of_narrowStart :
    ∀ b : Byte, isNarrowStart b → (decodeByte b).format = .s ∨ (decodeByte b).format = .c := by
  decide +kernel

/-! ## The operation an accepted byte performs, by its kind (41 R64) -/

theorem perform_accept_of_data (hb : isData b) (s : State) : perform (.accept b) s = dataByte b s := by
  rw [perform, exec_by_format, format_decodeByte_of_data b hb, encodeByte_decodeByte]

theorem perform_accept_of_realtime (hb : isRealtime b = true) (s : State) :
    perform (.accept b) s = realtimeReturn b s := by
  rw [perform, exec_by_format, format_decodeByte_of_realtime b hb, encodeByte_decodeByte]

theorem perform_accept_of_narrowStart (hb : isNarrowStart b) (s : State) :
    perform (.accept b) s = startMessage b s := by
  rw [perform, exec_by_format, encodeByte_decodeByte]
  obtain hf | hf := format_decodeByte_of_narrowStart b hb <;> rw [hf]

/-! ## `activeMessage` after each operation (10_state R20) -/

theorem startMessage_activeMessage (h : startMessage b s = .next t) : t.parser.activeMessage = b := by
  obtain ⟨_, -, rfl⟩ := startMessage_cases h
  rfl

theorem dataByte_activeMessage (h : dataByte b s = .next t) :
    t.parser.activeMessage = s.parser.activeMessage := by
  obtain ⟨-, rfl⟩ | ⟨-, rfl⟩ | ⟨-, _, -, rfl⟩ := dataByte_cases h <;> rfl

theorem realtimeReturn_parser (h : realtimeReturn b s = .next t) : t.parser = s.parser := by
  cases h
  rfl

theorem perform_idle_parser (h : perform .idle s = .next t) : t.parser = s.parser := by
  cases h
  rfl

end Sys2Proof.Machine

namespace Sys2Proof.Proofs

open Sys2Proof.Machine Sys2Proof.Safety

/-- Settles O38: the step is the event's operation on the advanced state, whose parser is the one before, and each kind of
event has its rule for `activeMessage`. -/
theorem activeMessageIsOverwrittenOnlyByStarts : Obligations.ActiveMessageIsOverwrittenOnlyByStarts := by
  intro s t h
  rw [step_eq_perform] at h
  refine ⟨fun b he hb => ?start, fun b he hb => ?keep, fun he => ?idle⟩ <;> rw [he] at h
  case start =>
    rw [perform_accept_of_narrowStart hb] at h
    exact startMessage_activeMessage h
  case keep =>
    obtain hdata | hrealtime := hb
    · rw [perform_accept_of_data hdata] at h
      rw [dataByte_activeMessage h, State.advance_parser]
    · rw [perform_accept_of_realtime hrealtime] at h
      rw [realtimeReturn_parser h, State.advance_parser]
  case idle => rw [perform_idle_parser h, State.advance_parser]

/-- Settles O10: the reset parser is written as R22 has it, and both accessors are computed from it. -/
theorem resetLeavesAllRegistersZero : Obligations.ResetLeavesAllRegistersZero := by
  rw [Obligations.ResetLeavesAllRegistersZero, State.reset_parser]
  refine ⟨rfl, rfl, ?_⟩
  decide

end Sys2Proof.Proofs
end

section
/-! The encoding (30_encoding): the format of a decoded byte (R46), and running status (R49). -/

namespace Sys2Proof.Machine

open Sys2Proof.Safety

variable {b v w : Byte} {n : PendingCount} {s t : State}

/-! ## The decoder and the mask tests (30_encoding R46) -/

/-- The decoder reads `op` and bit 3, R46 the masks: they agree on every byte. -/
theorem format_decodeByte : ∀ b : Byte, (decodeByte b).format = formatOf b := by
  decide +kernel

/-! ## Forward rules of the accepted byte: a start with a count, a data byte while one is pending -/

theorem isNarrowStart_of_epc (h : epc b = some n) : isNarrowStart b := by
  constructor
  · by_contra hstart
    rw [Bool.not_eq_true] at hstart
    simp [epc_eq_none_of_data b hstart] at h
  · by_contra hrealtime
    rw [Bool.not_eq_false] at hrealtime
    simp [epc_eq_none_of_realtime b hrealtime] at h

theorem perform_accept_of_epc (h : epc b = some n) (s : State) :
    perform (.accept b) s =
      .next (s.finish { s.parser with activeMessage := b, pendingCount := n } (startOutput b n)) := by
  rw [perform_accept_of_narrowStart (isNarrowStart_of_epc h), startMessage_of_epc h]

theorem perform_accept_first_of_two (hv : isData v) (hs : s.parser.pendingCount = .two) :
    perform (.accept v) s = .next (s.finish { s.parser with data0 := v, pendingCount := .one } .noMessage) := by
  rw [perform_accept_of_data hv]
  simp [dataByte, hs, PendingCount.take?, completionCheck, Parser.setData]

/-- The last parameter completes the message, and the count is re-armed from the status byte (R70). -/
theorem perform_accept_last (hw : isData w) (hs : s.parser.pendingCount = .one)
    (hn : epc s.parser.activeMessage = some n) :
    perform (.accept w) s =
      .next (s.finish { s.parser with data1 := w, pendingCount := n } (.message s.parser.activeMessage)) := by
  rw [perform_accept_of_data hw]
  simp [dataByte, hs, PendingCount.take?, completionCheck, Parser.setData, hn]

/-! ## Streams -/

@[simp] theorem feed_nil : feed s [] = some (s, []) := rfl

theorem feed_cons {bytes : List Byte} {u : State} {later : List Output}
    (hp : perform (.accept b) s = .next t) (hr : feed t bytes = some (u, later)) :
    feed s (b :: bytes) = some (u, t.output :: later) :=
  runEvents_cons hp hr

theorem feed_append {xs ys : List Byte} {u : State} {later : List Output} (hys : feed t ys = some (u, later)) :
    ∀ {s : State} {outs : List Output}, feed s xs = some (t, outs) → feed s (xs ++ ys) = some (u, outs ++ later) := by
  induction xs with
  | nil =>
    intro s outs hxs
    simp only [feed_nil, Option.some.injEq, Prod.mk.injEq] at hxs
    obtain ⟨rfl, rfl⟩ := hxs
    exact hys
  | cons x xs ih =>
    intro s outs hxs
    obtain ⟨_, _, hx, hrest, rfl⟩ := runEvents_cons_cases hxs
    exact feed_cons hx (ih hrest)

/-! ## Running status (30_encoding R49) -/

/-- The parser is ready for a whole group of parameters of the status byte `b`, whose count is `n`. -/
def Armed (b : Byte) (n : PendingCount) (s : State) : Prop :=
  s.parser.activeMessage = b ∧ s.parser.pendingCount = n

/-- From every armed state the bytes put out `outs` and leave the parser armed for the next group. -/
def Rearms (b : Byte) (n : PendingCount) (bytes : List Byte) (outs : List Output) : Prop :=
  ∀ s, Armed b n s → ∃ t, feed s bytes = some (t, outs) ∧ Armed b n t

theorem Rearms.append {xs ys : List Byte} {os ps : List Output} (hxs : Rearms b n xs os) (hys : Rearms b n ys ps) :
    Rearms b n (xs ++ ys) (os ++ ps) := by
  intro s hs
  obtain ⟨t, hst, ht⟩ := hxs s hs
  obtain ⟨u, htu, hu⟩ := hys t ht
  exact ⟨u, feed_append htu hst, hu⟩

/-- Groups that each re-arm, however many, re-arm together. -/
theorem Rearms.flatMap {α : Type} {bytes : α → List Byte} {outs : α → List Output} :
    ∀ {groups : List α}, (∀ g ∈ groups, Rearms b n (bytes g) (outs g)) →
      Rearms b n (groups.flatMap bytes) (groups.flatMap outs)
  | [], _ => fun s hs => ⟨s, feed_nil, hs⟩
  | g :: groups, h => by
    rw [List.forall_mem_cons] at h
    obtain ⟨hfirst, hrest⟩ := h
    exact hfirst.append (Rearms.flatMap hrest)

theorem rearms_pair (hb : epc b = some .two) (hv : isData v) (hw : isData w) :
    Rearms b .two [v, w] [.noMessage, .message b] := by
  rintro s ⟨rfl, hs⟩
  have hfirst := perform_accept_first_of_two hv hs
  have hlast := perform_accept_last hw
    (s := s.finish { s.parser with data0 := v, pendingCount := .one } .noMessage) rfl hb
  exact ⟨_, feed_cons hfirst (feed_cons hlast feed_nil), rfl, rfl⟩

theorem rearms_single (hb : epc b = some .one) (hw : isData w) : Rearms b .one [w] [.message b] := by
  rintro s ⟨rfl, hs⟩
  exact ⟨_, feed_cons (perform_accept_last hw hs hb) feed_nil, rfl, rfl⟩

/-- The status byte arms the parser, whatever was in progress before it. -/
theorem Rearms.feed_status {bytes : List Byte} {outs : List Output} (h : Rearms b n bytes outs) (hb : epc b = some n)
    (s : State) : ∃ t, feed s (b :: bytes) = some (t, startOutput b n :: outs) ∧ Armed b n t := by
  obtain ⟨t, hfeed, ht⟩ := h (s.finish { s.parser with activeMessage := b, pendingCount := n } (startOutput b n)) ⟨rfl, rfl⟩
  exact ⟨t, feed_cons (perform_accept_of_epc hb s) hfeed, ht⟩

end Sys2Proof.Machine

namespace Sys2Proof.Proofs

open Sys2Proof.Machine Sys2Proof.Safety

/-- Settles O42: each group, a pair or a single byte, re-arms the parser, so any number of them after the status byte does;
the realtime byte is returned with the registers untouched. -/
theorem runningStatusCompletesEveryGroup : Obligations.RunningStatusCompletesEveryGroup := by
  refine ⟨?pairs, ?singles, ?realtime⟩
  case pairs =>
    intro s b groups hb hgroups
    have hpairs : Rearms b .two (groups.flatMap fun g => [g.1, g.2]) (groups.flatMap fun _ => [.noMessage, .message b]) :=
      Rearms.flatMap fun g hg => rearms_pair hb (hgroups g hg).1 (hgroups g hg).2
    exact hpairs.feed_status hb s
  case singles =>
    intro s b group hb hgroup
    have hsingles : Rearms b .one (group.flatMap fun w => [w]) (group.flatMap fun _ => [.message b]) :=
      Rearms.flatMap fun w hw => rearms_single hb (hgroup w hw)
    rw [List.flatMap_singleton', ← List.map_eq_flatMap] at hsingles
    exact hsingles.feed_status hb s
  case realtime =>
    intro s r hr
    exact perform_accept_of_realtime hr s

/-- Settles O5: the decoded format is `formatOf`, which makes R46's tests in order; the numbers are counted. -/
theorem decodedFormatFollowsTheMaskTests : Obligations.DecodedFormatFollowsTheMaskTests := by
  refine ⟨fun b => ?tests, by decide +kernel, by decide +kernel, by decide +kernel, by decide +kernel⟩
  case tests =>
    rw [format_decodeByte, formatOf]
    refine ⟨fun hr => if_pos hr, fun hr hstart hs => ?_, fun hr hstart hs => ?_, fun hr hstart => ?_⟩
    · exact (if_neg hr).trans ((if_pos hstart).trans (if_pos hs))
    · exact (if_neg hr).trans ((if_pos hstart).trans (if_neg hs))
    · exact (if_neg hr).trans (if_neg hstart)

end Sys2Proof.Proofs
end

section
/-! The classifier (40_classifier): the predicates as ranges (R55 to R58), and the domain of `epc` (R59). -/

namespace Sys2Proof.Machine

open Sys2Proof.Safety

variable {b : Byte} {op : Selector}

/-! ## The predicates as ranges (R55 to R58) -/

theorem isMessageStart_eq_msb : ∀ b : Byte, isMessageStart b = b.msb := by
  decide +kernel

theorem isMessageStart_iff (b : Byte) : isMessageStart b = true ↔ 0x80 ≤ b.toNat := by
  rw [isMessageStart_eq_msb, BitVec.msb_eq_decide, decide_eq_true_iff]

theorem isRealtime_iff : ∀ b : Byte, isRealtime b = true ↔ 0xF8 ≤ b.toNat := by
  decide +kernel

theorem isSystemCommon_iff : ∀ b : Byte, isSystemCommon b = true ↔ 0xF0 ≤ b.toNat ∧ b.toNat ≤ 0xF7 := by
  decide +kernel

theorem not_systemCommon_and_realtime (b : Byte) : ¬ (isSystemCommon b = true ∧ isRealtime b = true) := by
  rw [isSystemCommon_iff, isRealtime_iff]
  omega

theorem isChannel_iff (b : Byte) : isChannel b = true ↔ 0x80 ≤ b.toNat ∧ b.toNat ≤ 0xEF := by
  simp only [isChannel, Bool.and_eq_true, Bool.not_eq_true', Bool.eq_false_iff, ne_eq, isMessageStart_iff,
    isSystemCommon_iff, isRealtime_iff]
  omega

theorem isNarrowStart_iff (b : Byte) : isNarrowStart b ↔ 0x80 ≤ b.toNat ∧ b.toNat ≤ 0xF7 := by
  rw [isNarrowStart, isMessageStart_iff, Bool.eq_false_iff, ne_eq, isRealtime_iff]
  omega

/-! ## The lookup (R59) -/

theorem epc_of_systemCommon (hb : isSystemCommon b = true) : epc b = scTable[(subField b).toNat]? :=
  if_pos hb

theorem epc_of_channel (hb : isChannel b = true) : epc b = chTable[(opField b).toNat]? := by
  have hsys : ¬ isSystemCommon b = true := by
    rw [isChannel_iff] at hb
    rw [isSystemCommon_iff]
    omega
  rw [epc, if_neg hsys, if_pos hb]

theorem epc_isSome_iff (b : Byte) : (epc b).isSome = true ↔ 0x80 ≤ b.toNat ∧ b.toNat ≤ 0xF7 := by
  rw [← isNarrowStart_iff]
  constructor
  · intro h
    obtain ⟨_, hn⟩ := Option.isSome_iff_exists.mp h
    exact isNarrowStart_of_epc hn
  · rintro ⟨hstart, hrealtime⟩
    exact epc_isSome_of_start b hstart hrealtime

/-! ## The byte of a selector and a channel -/

@[simp] theorem opField_channelByte (op : Selector) (ch : Channel) : opField (channelByte op ch) = op := by
  revert op ch
  decide +kernel

theorem isChannel_channelByte : ∀ (op : Selector) (ch : Channel), op ≠ 7 → isChannel (channelByte op ch) = true := by
  decide +kernel

theorem epc_channelByte (hop : op ≠ 7) (ch : Channel) : epc (channelByte op ch) = chTable[op.toNat]? := by
  rw [epc_of_channel (isChannel_channelByte op ch hop), opField_channelByte]

end Sys2Proof.Machine

namespace Sys2Proof.Proofs

open Sys2Proof.Machine

/-- Settles O6: each mask test is a range (R55 to R57), and the ranges of system-common and realtime do not meet. -/
theorem classifierPredicatesAreRanges : Obligations.ClassifierPredicatesAreRanges := by
  intro b
  exact ⟨isMessageStart_iff b, isMessageStart_eq_msb b, isRealtime_iff b, isMessageStart_of_realtime b,
    isSystemCommon_iff b, not_systemCommon_and_realtime b⟩

/-- Settles O8: the two lookups by the kind of the byte; the domain is the narrow message-start bytes; the lookup of a
channel byte reads its selector alone. -/
theorem parameterCountIsDefinedOnItsDomain : Obligations.ParameterCountIsDefinedOnItsDomain := by
  refine ⟨?systemCommon, ?channel, epc_isSome_iff, ?channelIndependent, ?values⟩
  case systemCommon => exact fun b hb => epc_of_systemCommon hb
  case channel => exact fun b hlow hhigh => epc_of_channel ((isChannel_iff b).mpr ⟨hlow, hhigh⟩)
  case channelIndependent =>
    intro op ch ch' hop
    rw [epc_channelByte hop, epc_channelByte hop]
  case values => decide

end Sys2Proof.Proofs
end

section
/-! `Accept` and the data byte (41): what a data byte does under each count (R68), the bytes that pass where nothing is
pending, and how a hold is entered and left (R72). -/

namespace Sys2Proof.Machine

open Sys2Proof.Safety

variable {b : Byte} {n : PendingCount} {s t : State}

/-! ## The kinds of byte -/

theorem isRealtime_of_data (hb : isData b) : isRealtime b = false := by
  rw [Bool.eq_false_iff]
  intro hrealtime
  simp [isData, isMessageStart_of_realtime b hrealtime] at hb

theorem data_or_realtime_or_narrowStart (b : Byte) : isData b ∨ isRealtime b = true ∨ isNarrowStart b := by
  by_cases hstart : isMessageStart b = true
  · by_cases hrealtime : isRealtime b = true
    · exact .inr (.inl hrealtime)
    · exact .inr (.inr ⟨hstart, Bool.eq_false_iff.mpr hrealtime⟩)
  · exact .inl (Bool.eq_false_iff.mpr hstart)

theorem decodeByte_of_data (hb : isData b) : decodeByte b = .data b := by
  have hmsb : b.msb = false := (isMessageStart_eq_msb b).symm.trans hb
  simp [decodeByte, hmsb]

/-! ## Forward rules of the data byte, by the count (R68) -/

theorem dataByte_of_two (h : s.parser.pendingCount = .two) (b : Byte) :
    dataByte b s = .next (s.finish { s.parser with data0 := b, pendingCount := .one } .noMessage) := by
  simp [dataByte, h, PendingCount.take?, completionCheck, Parser.setData]

theorem dataByte_of_one (h : s.parser.pendingCount = .one) (hn : epc s.parser.activeMessage = some n) (b : Byte) :
    dataByte b s =
      .next (s.finish { s.parser with data1 := b, pendingCount := n } (.message s.parser.activeMessage)) := by
  simp [dataByte, h, PendingCount.take?, completionCheck, Parser.setData, hn]

theorem dataByte_of_not_pending (h : s.parser.pendingCount = .zero ∨ s.parser.pendingCount = .hold) (b : Byte) :
    dataByte b s = .next (s.finish s.parser .noMessage) := by
  obtain h | h := h <;> simp [dataByte, h, PendingCount.take?]

/-! ## Bytes that pass: nothing is pending and no message starts (R69, R72) -/

theorem passOutput_of_data (hb : isData b) : passOutput b = .noMessage := by
  simp [passOutput, isRealtime_of_data hb]

theorem passOutput_of_realtime (hb : isRealtime b = true) : passOutput b = .message b :=
  if_pos hb

theorem perform_accept_of_pass (hs : s.parser.pendingCount = .zero ∨ s.parser.pendingCount = .hold)
    (hb : isData b ∨ isRealtime b = true) :
    perform (.accept b) s = .next (s.finish s.parser (passOutput b)) := by
  obtain hdata | hrealtime := hb
  · rw [perform_accept_of_data hdata, dataByte_of_not_pending hs, passOutput_of_data hdata]
  · rw [perform_accept_of_realtime hrealtime, passOutput_of_realtime hrealtime, realtimeReturn]

/-- The parser a passing byte leaves is the one it found, so the next byte passes too. -/
theorem feed_of_pass {bytes : List Byte} :
    ∀ {s : State}, s.parser.pendingCount = .zero ∨ s.parser.pendingCount = .hold →
      (∀ b ∈ bytes, isData b ∨ isRealtime b = true) →
        ∃ t, feed s bytes = some (t, bytes.map passOutput) ∧ t.parser = s.parser := by
  induction bytes with
  | nil => exact fun _ _ => ⟨_, feed_nil, rfl⟩
  | cons b bytes ih =>
    intro s hs hbytes
    rw [List.forall_mem_cons] at hbytes
    obtain ⟨hb, hrest⟩ := hbytes
    obtain ⟨t, hfeed, ht⟩ := ih (s := s.finish s.parser (passOutput b)) hs hrest
    exact ⟨t, feed_cons (perform_accept_of_pass hs hb) hfeed, ht⟩

/-! ## What a status byte puts out (R66, R67) -/

theorem startOutput_eq_message (hn : epc b = some n) (hb : b = 0xF0 ∨ 0xF4 ≤ b.toNat) :
    startOutput b n = .message b := by
  obtain hsysex | hlow := hb
  · have hhold : epc b = some .hold := (epc_eq_hold_iff b).mpr hsysex
    obtain rfl : n = .hold := Option.some.inj (hn.symm.trans hhold)
    rfl
  · have hhigh : b.toNat ≤ 0xF7 := ((epc_isSome_iff b).mp (Option.isSome_of_eq_some hn)).2
    have hzero : epc b = some .zero := (epc_eq_zero_iff b).mpr ⟨hlow, hhigh⟩
    obtain rfl : n = .zero := Option.some.inj (hn.symm.trans hzero)
    rfl

theorem startOutput_eq_noMessage (hn : epc b = some n) (hsysex : b ≠ 0xF0) (hlow : b.toNat < 0xF4) :
    startOutput b n = .noMessage := by
  cases n with
  | hold => exact absurd ((epc_eq_hold_iff b).mp hn) hsysex
  | zero => exact absurd ((epc_eq_zero_iff b).mp hn).1 (Nat.not_le.mpr hlow)
  | one | two => rfl

/-! ## How a hold is entered -/

theorem sysexOpen_iff (p : Parser) : sysexOpen p = true ↔ p.pendingCount = .hold := by
  cases h : p.pendingCount <;> simp [sysexOpen, h]

theorem startMessage_enters_hold (h : startMessage b s = .next t) (ht : t.parser.pendingCount = .hold) :
    b = 0xF0 ∧ t.output = .message 0xF0 := by
  obtain ⟨n, hn, rfl⟩ := startMessage_cases h
  obtain rfl : n = .hold := ht
  obtain rfl : b = 0xF0 := (epc_eq_hold_iff b).mp hn
  exact ⟨rfl, rfl⟩

/-- R19: no message in collection re-arms to the hold. -/
theorem epc_ne_hold_of_one (hinv : Inv s.parser) (h : s.parser.pendingCount = .one) :
    epc s.parser.activeMessage ≠ some .hold := by
  intro hhold
  obtain ⟨hcontrol, -, -⟩ := hinv
  simp [ControlInv, h, hhold] at hcontrol

theorem dataByte_pendingCount_ne_hold (hinv : Inv s.parser) (hs : s.parser.pendingCount ≠ .hold)
    (h : dataByte b s = .next t) : t.parser.pendingCount ≠ .hold := by
  obtain ⟨-, rfl⟩ | ⟨-, rfl⟩ | ⟨hone, n, hn, rfl⟩ := dataByte_cases h
  · exact hs
  · exact nofun
  · rintro rfl
    exact epc_ne_hold_of_one hinv hone hn

/-- Of all events only the acceptance of 0xF0 enters a hold, and it is reported. -/
theorem perform_enters_hold {e : Event} (hinv : Inv s.parser) (h : perform e s = .next t)
    (hs : s.parser.pendingCount ≠ .hold) (ht : t.parser.pendingCount = .hold) :
    e = .accept 0xF0 ∧ t.output = .message 0xF0 := by
  cases e with
  | reset =>
    cases h
    exact nomatch ht
  | idle =>
    rw [perform_idle_parser h] at ht
    exact absurd ht hs
  | accept b =>
    obtain hdata | hrealtime | hstart := data_or_realtime_or_narrowStart b
    · rw [perform_accept_of_data hdata] at h
      exact absurd ht (dataByte_pendingCount_ne_hold hinv hs h)
    · rw [perform_accept_of_realtime hrealtime] at h
      rw [realtimeReturn_parser h] at ht
      exact absurd ht hs
    · rw [perform_accept_of_narrowStart hstart] at h
      obtain ⟨rfl, hout⟩ := startMessage_enters_hold h ht
      exact ⟨rfl, hout⟩

end Sys2Proof.Machine

namespace Sys2Proof.Proofs

open Sys2Proof.Machine Sys2Proof.Safety

/-- Settles O33: the decoder's bit 7, and the rule of `dataByte` for each count. -/
theorem dataByteIsStoredCompletedOrDiscarded : Obligations.DataByteIsStoredCompletedOrDiscarded := by
  intro b s
  refine ⟨?decoded, ?stored, ?completed, ?discarded⟩
  case decoded =>
    intro hb
    rw [decode, decodeByte_of_data hb]
  case stored => exact fun h => dataByte_of_two h b
  case completed => exact fun _ h hn => dataByte_of_one h hn b
  case discarded => exact fun h => dataByte_of_not_pending h b

/-- Settles O43: the bytes of a body pass; the closing byte starts its own message, whose count is the hold only for 0xF0;
and no other event enters a hold. -/
theorem holdPassesUntilTheNextStart : Obligations.HoldPassesUntilTheNextStart := by
  refine ⟨?passes, ?closes, ?entered⟩
  case passes => exact fun s bytes hs hbytes => feed_of_pass (.inr hs) hbytes
  case closes =>
    rintro s b - ⟨hstart, hrealtime⟩
    obtain ⟨n, hn⟩ := Option.isSome_iff_exists.mp (epc_isSome_of_start b hstart hrealtime)
    refine ⟨_, perform_accept_of_epc hn s, rfl, hn, rfl, rfl, ?opens, startOutput_eq_message hn,
      startOutput_eq_noMessage hn⟩
    case opens =>
      rw [sysexOpen_iff, ← epc_eq_hold_iff, hn, Option.some.injEq]
      rfl
  case entered =>
    intro s t hinv h hs ht
    rw [step_eq_perform] at h
    exact perform_enters_hold (s := s.advance) hinv h hs ht

end Sys2Proof.Proofs
end

section
/-! The channel messages (42): a status byte starts its message (R78 to R84), a whole message of one or of two parameters is
reported by its last byte (R48), and two data bytes read together as the 14-bit value (R107). -/

namespace Sys2Proof.Machine

open Sys2Proof.Safety

variable {i : Instr} {b : Byte} {n : PendingCount} {op : Selector} {s : State} {p : Parser}

/-! ## The status bytes: the selector's byte on channel 0, with the channel in the low nibble -/

theorem channelByte_eq_or : ∀ (op : Selector) (ch : Channel), channelByte op ch = channelByte op 0 ||| ch.setWidth 8 := by
  decide +kernel

theorem epc_channelByte_of_count (hn : chTable[op.toNat]? = some n) (ch : Channel) : epc (channelByte op ch) = some n := by
  have hop : op ≠ 7 := by
    rintro rfl
    cases hn
  rw [epc_channelByte hop, hn]

/-! ## Starting a message -/

theorem exec_of_status (hf : i.format = .s ∨ i.format = .c) (s : State) : exec i s = startMessage (encodeByte i) s := by
  rw [exec_by_format]
  obtain hf | hf := hf <;> rw [hf]

/-- A class of format S or C whose byte is `b`: its encoding, and its whole effect from any state. -/
theorem status_encode_exec (hf : i.format = .s ∨ i.format = .c) (hb : encodeByte i = b) (hn : epc b = some n) (s : State) :
    encode i = [b] ∧
    exec i s = .next { s with
      parser := { s.parser with activeMessage := b, pendingCount := n }, output := startOutput b n } := by
  subst hb
  exact ⟨rfl, (exec_of_status hf s).trans (startMessage_of_epc hn)⟩

/-- `status_encode_exec` for a channel class: the byte as R43 writes it, the count from `CH_TABLE`. -/
theorem channel_encode_exec {ch : Channel} (hf : i.format = .c) (hb : encodeByte i = channelByte op ch)
    (hn : chTable[op.toNat]? = some n) (s : State) :
    encode i = [channelByte op 0 ||| ch.setWidth 8] ∧
    exec i s = .next { s with
      parser := { s.parser with activeMessage := channelByte op 0 ||| ch.setWidth 8, pendingCount := n }
      output := startOutput (channelByte op 0 ||| ch.setWidth 8) n } := by
  rw [← channelByte_eq_or]
  exact status_encode_exec (.inr hf) hb (epc_channelByte_of_count hn ch) s

/-! ## Whole messages (R48) -/

theorem reportsTwoParameters_of_epc (hb : epc b = some .two) : ReportsTwoParameters b := by
  intro s v w hv hw
  have hstatus := perform_accept_of_epc hb s
  have hfirst := perform_accept_first_of_two hv
    (s := s.finish { s.parser with activeMessage := b, pendingCount := .two } .noMessage) rfl
  have hlast := perform_accept_last hw
    (s := s.finish { s.parser with activeMessage := b, pendingCount := .one, data0 := v } .noMessage) rfl hb
  exact feed_cons hstatus (feed_cons hfirst (feed_cons hlast feed_nil))

/-- The second data byte finds the parser re-armed by the first, so it completes a message in the same way. -/
theorem reportsOneParameter_of_epc (hb : epc b = some .one) : ReportsOneParameter b := by
  intro s w x hw hx
  have hstatus := perform_accept_of_epc hb s
  have hfirst := perform_accept_last hw
    (s := s.finish { s.parser with activeMessage := b, pendingCount := .one } .noMessage) rfl hb
  have hsecond := perform_accept_last hx
    (s := s.finish { s.parser with activeMessage := b, pendingCount := .one, data1 := w } (.message b)) rfl hb
  exact ⟨feed_cons hstatus (feed_cons hfirst feed_nil),
    feed_cons hstatus (feed_cons hfirst (feed_cons hsecond feed_nil))⟩

theorem channel_reportsTwoParameters (hn : chTable[op.toNat]? = some .two) (ch : Channel) :
    ReportsTwoParameters (channelByte op 0 ||| ch.setWidth 8) := by
  rw [← channelByte_eq_or]
  exact reportsTwoParameters_of_epc (epc_channelByte_of_count hn ch)

theorem channel_reportsOneParameter (hn : chTable[op.toNat]? = some .one) (ch : Channel) :
    ReportsOneParameter (channelByte op 0 ||| ch.setWidth 8) := by
  rw [← channelByte_eq_or]
  exact reportsOneParameter_of_epc (epc_channelByte_of_count hn ch)

/-! ## The 14-bit value of two data bytes (R107) -/

theorem toNat_lt_of_data (hb : isData b) : b.toNat < 128 := by
  rw [isData, Bool.eq_false_iff, ne_eq, isMessageStart_iff] at hb
  omega

/-- The operands of R107's `or` have no bit in common, so it adds. -/
theorem value14_toNat (h0 : p.data0.toNat < 128) (h1 : p.data1.toNat < 128) :
    (value14 p).toNat = p.data1.toNat * 128 + p.data0.toNat := by
  have hor : p.data1.toNat <<< 7 ||| p.data0.toNat = p.data1.toNat * 128 + p.data0.toNat := by
    rw [← Nat.shiftLeft_add_eq_or_of_lt h0, Nat.shiftLeft_eq]
  have hshift : p.data1.toNat <<< 7 < 2 ^ 15 := by
    rw [Nat.shiftLeft_eq]
    omega
  rw [value14, BitVec.toNat_setWidth, BitVec.toNat_or, BitVec.toNat_shiftLeft,
    BitVec.toNat_setWidth_of_le (by decide), BitVec.toNat_setWidth_of_le (by decide), Nat.mod_eq_of_lt hshift, hor]
  omega

end Sys2Proof.Machine

namespace Sys2Proof.Proofs

open Sys2Proof.Machine Sys2Proof.Safety

/-- Settles O26: `CH_TABLE` holds 2 for the selectors 0 to 3, so their bytes start messages of two parameters. -/
theorem twoParameterChannelMessages : Obligations.TwoParameterChannelMessages := by
  refine ⟨?noteOff, ?noteOn, ?polyAftertouch, ?controlChange, fun ch => ⟨?_, ?_, ?_, ?_⟩⟩
  case noteOff => exact fun ch => channel_encode_exec (ch := ch) (op := 0) rfl rfl rfl
  case noteOn => exact fun ch => channel_encode_exec (ch := ch) (op := 1) rfl rfl rfl
  case polyAftertouch => exact fun ch => channel_encode_exec (ch := ch) (op := 2) rfl rfl rfl
  case controlChange => exact fun ch => channel_encode_exec (ch := ch) (op := 3) rfl rfl rfl
  · exact channel_reportsTwoParameters (op := 0) rfl ch
  · exact channel_reportsTwoParameters (op := 1) rfl ch
  · exact channel_reportsTwoParameters (op := 2) rfl ch
  · exact channel_reportsTwoParameters (op := 3) rfl ch

/-- Settles O27: `CH_TABLE` holds 1 for the selectors 4 and 5, and each data byte re-arms that count. -/
theorem oneParameterChannelMessages : Obligations.OneParameterChannelMessages := by
  refine ⟨?programChange, ?channelPressure, fun ch => ⟨?_, ?_⟩⟩
  case programChange => exact fun ch => channel_encode_exec (ch := ch) (op := 4) rfl rfl rfl
  case channelPressure => exact fun ch => channel_encode_exec (ch := ch) (op := 5) rfl rfl rfl
  · exact channel_reportsOneParameter (op := 4) rfl ch
  · exact channel_reportsOneParameter (op := 5) rfl ch

/-- Settles O28: the message ends with the first data byte in `data[0]` and the second in `data[1]`, both below 128, where
the 14-bit value is their sum by places. -/
theorem pitchBendReadsFourteenBits : Obligations.PitchBendReadsFourteenBits := by
  have hreports (ch : Channel) : ReportsTwoParameters (0xE0 ||| ch.setWidth 8) :=
    channel_reportsTwoParameters (op := 6) rfl ch
  refine ⟨?starts, hreports, ?value⟩
  case starts => exact fun ch => channel_encode_exec (ch := ch) (op := 6) rfl rfl rfl
  case value =>
    intro ch s t v w outs hv hw hfeed
    rw [hreports ch s v w hv hw, Option.some.injEq, Prod.mk.injEq] at hfeed
    obtain ⟨rfl, -⟩ := hfeed
    rw [value14_toNat (toNat_lt_of_data hv) (toNat_lt_of_data hw), Nat.mul_comm]

end Sys2Proof.Proofs
end

section
/-! The system-common messages (43): a status byte that takes no counted parameter is reported at once and the data
bytes after it are discarded (R86, R90 to R93); a realtime byte inside a message of two parameters is returned (R88). -/

namespace Sys2Proof.Machine

open Sys2Proof.Safety

variable {b v r w : Byte} {n : PendingCount}

/-! ## A status byte after which nothing is pending, and the data bytes after it -/

theorem startOutput_of_not_pending (hn : n = .zero ∨ n = .hold) (b : Byte) : startOutput b n = .message b := by
  obtain rfl | rfl := hn <;> rfl

/-- Data bytes that find nothing pending change only the output, and only if there is one of them (R69). -/
theorem feed_data_of_not_pending {body : List Byte} :
    ∀ {s : State}, s.parser.pendingCount = .zero ∨ s.parser.pendingCount = .hold → (∀ b ∈ body, isData b) →
      feed s body = some (
        s.finish s.parser (if body = [] then s.output else .noMessage), body.map fun _ => .noMessage) := by
  induction body with
  | nil => exact fun _ _ => feed_nil
  | cons b body ih =>
    intro s hs hbody
    rw [List.forall_mem_cons] at hbody
    obtain ⟨hb, hrest⟩ := hbody
    have hdiscard : perform (.accept b) s = .next (s.finish s.parser .noMessage) := by
      rw [perform_accept_of_data hb, dataByte_of_not_pending hs]
    have hlater := feed_cons hdiscard (ih hs hrest)
    rw [State.finish_output, ite_self] at hlater
    exact hlater

/-- The status byte is reported, and the data bytes after it are discarded one by one. -/
theorem feed_status_data_of_not_pending {body : List Byte} (hb : epc b = some n) (hn : n = .zero ∨ n = .hold)
    (hbody : ∀ v ∈ body, isData v) (s : State) :
    feed s (b :: body) = some (
      { s with
        parser := { s.parser with activeMessage := b, pendingCount := n }
        output := if body = [] then .message b else .noMessage },
      .message b :: body.map fun _ => .noMessage) := by
  have hstatus := perform_accept_of_epc hb s
  rw [startOutput_of_not_pending hn] at hstatus
  exact feed_cons hstatus (feed_data_of_not_pending hn hbody)

theorem reportsAtOnceAndRests_of_epc (hb : epc b = some .zero) : ReportsAtOnceAndRests b :=
  fun s _ hv => feed_status_data_of_not_pending hb (.inl rfl) (List.forall_mem_singleton.mpr hv) s

/-! ## A realtime byte between the data bytes of a message -/

/-- The realtime byte leaves the parser as the first data byte left it, so the second completes the message. -/
theorem feed_two_parameters_around_realtime (hb : epc b = some .two) (hv : isData v) (hr : isRealtime r = true)
    (hw : isData w) (s : State) :
    feed s [b, v, r, w] = some (
      { s with
        parser := { activeMessage := b, pendingCount := .two, data0 := v, data1 := w }
        output := .message b },
      [.noMessage, .noMessage, .message r, .message b]) := by
  have hstatus := perform_accept_of_epc hb s
  have hfirst := perform_accept_first_of_two hv
    (s := s.finish { s.parser with activeMessage := b, pendingCount := .two } .noMessage) rfl
  have hrealtime := perform_accept_of_realtime hr
    (s.finish { s.parser with activeMessage := b, pendingCount := .one, data0 := v } .noMessage)
  have hlast := perform_accept_last hw
    (s := s.finish { s.parser with activeMessage := b, pendingCount := .one, data0 := v } (.message r)) rfl hb
  exact feed_cons hstatus (feed_cons hfirst (feed_cons hrealtime (feed_cons hlast feed_nil)))

end Sys2Proof.Machine

namespace Sys2Proof.Proofs

open Sys2Proof.Machine Sys2Proof.Safety

/-- Settles O29: the count of 0xF0 is the hold, under which the data bytes are discarded, so 0xF7 finds the slots that
0xF0 found. -/
theorem sysexOpensTheHoldUntilEndex : Obligations.SysexOpensTheHoldUntilEndex := by
  intro s
  have hsysex : epc 0xF0 = some .hold := (epc_eq_hold_iff 0xF0).mpr rfl
  have hendex : epc 0xF7 = some .zero := (epc_eq_zero_iff 0xF7).mpr (by decide)
  obtain ⟨hencode, hexec⟩ := status_encode_exec (i := .sysex) (.inl rfl) rfl hsysex s
  refine ⟨hencode, hexec, ?opens, fun body hbody => ?stream⟩
  case opens =>
    intro t h
    obtain rfl := Host.Outcome.next.inj (hexec.symm.trans h)
    exact (sysexOpen_iff _).mpr rfl
  case stream =>
    have hopen := feed_status_data_of_not_pending hsysex (.inr rfl) hbody s
    have hclose (t : State) := feed_cons (perform_accept_of_epc hendex t) feed_nil
    have hboth := feed_append (hclose _) hopen
    exact ⟨hopen, hboth⟩

/-- Settles O30: `SC_TABLE` holds 1 for 0xF1 and 0xF3, and each data byte re-arms that count. -/
theorem oneParameterSystemCommon : Obligations.OneParameterSystemCommon := by
  have hmtc : epc 0xF1 = some .one := rfl
  have hsong : epc 0xF3 = some .one := rfl
  exact ⟨status_encode_exec (.inl rfl) rfl hmtc, status_encode_exec (.inl rfl) rfl hsong,
    reportsOneParameter_of_epc hmtc, reportsOneParameter_of_epc hsong⟩

/-- Settles O31: `SC_TABLE` holds 2 for 0xF2; with or without a realtime byte between them the two data bytes end in
their slots, both below 128, where the 14-bit value is their sum by places. -/
theorem songPositionMessage : Obligations.SongPositionMessage := by
  have hsong : epc 0xF2 = some .two := rfl
  refine ⟨status_encode_exec (.inl rfl) rfl hsong, reportsTwoParameters_of_epc hsong, ?interrupted⟩
  case interrupted =>
    intro s v r w hv hr hw
    refine ⟨_, feed_two_parameters_around_realtime hsong hv hr hw s, rfl, ?value⟩
    case value => rw [value14_toNat (toNat_lt_of_data hv) (toNat_lt_of_data hw), Nat.mul_comm]

/-- Settles O32: the bytes 0xF4 to 0xF7 are those of count 0, so each is reported at once and nothing is pending
after it. -/
theorem zeroParameterSystemCommon : Obligations.ZeroParameterSystemCommon := by
  have hzero (b : Byte) (h : 0xF4 ≤ b.toNat ∧ b.toNat ≤ 0xF7) : epc b = some .zero := (epc_eq_zero_iff b).mpr h
  have hF4 := hzero 0xF4 (by decide)
  have hF5 := hzero 0xF5 (by decide)
  have hF6 := hzero 0xF6 (by decide)
  have hF7 := hzero 0xF7 (by decide)
  refine ⟨status_encode_exec (.inl rfl) rfl hF4, status_encode_exec (.inl rfl) rfl hF5,
    status_encode_exec (.inl rfl) rfl hF6, fun s => ?endex, reportsAtOnceAndRests_of_epc hF4,
    reportsAtOnceAndRests_of_epc hF5, reportsAtOnceAndRests_of_epc hF6, reportsAtOnceAndRests_of_epc hF7⟩
  case endex =>
    obtain ⟨hencode, hexec⟩ := status_encode_exec (i := .endex) (.inl rfl) rfl hF7 s
    refine ⟨hencode, hexec, fun t h => ?closed⟩
    case closed =>
      obtain rfl := Host.Outcome.next.inj (hexec.symm.trans h)
      rfl

end Sys2Proof.Proofs
end

section
/-! The realtime messages (44): a class of format R is returned at once and writes no register (R94 to R102). -/

namespace Sys2Proof.Machine

variable {i : Instr} {b : Byte}

theorem exec_of_realtime (hf : i.format = .r) (s : State) : exec i s = realtimeReturn (encodeByte i) s := by
  rw [exec_by_format, hf]

/-- A class of format R whose byte is `b`: its encoding, and its whole effect from any state. -/
theorem realtime_encode_exec (hf : i.format = .r) (hb : encodeByte i = b) (s : State) :
    encode i = [b] ∧ exec i s = .next { s with output := .message b } := by
  subst hb
  exact ⟨rfl, exec_of_realtime hf s⟩

end Sys2Proof.Machine

namespace Sys2Proof.Proofs

open Sys2Proof.Machine

/-- Settles O24: each of the eight classes is of format R, and its byte is the realtime byte of its selector. -/
theorem realtimeBytesReturnAtOnce : Obligations.RealtimeBytesReturnAtOnce := by
  intro s
  exact ⟨realtime_encode_exec rfl rfl s, realtime_encode_exec rfl rfl s, realtime_encode_exec rfl rfl s,
    realtime_encode_exec rfl rfl s, realtime_encode_exec rfl rfl s, realtime_encode_exec rfl rfl s,
    realtime_encode_exec rfl rfl s, realtime_encode_exec rfl rfl s⟩

end Sys2Proof.Proofs
end

section
/-! The accessors (45): the 14-bit value of the two slots (R107, R8). -/

namespace Sys2Proof.Machine

/-- R8: 15 bits hold every byte shifted left by 7, so only the 14-bit port can lose a bit. -/
theorem shiftLeft_seven_lt (b : Byte) : b.toNat <<< 7 < 2 ^ 15 := by
  have hb := b.isLt
  rw [Nat.shiftLeft_eq]
  omega

/-- R107 on every pair of slots, also where the port truncates a `data[1]` with bit 7 set (92 D6). -/
theorem value14_eq_ofNat (p : Parser) :
    value14 p = BitVec.ofNat 14 (p.data1.toNat <<< 7 ||| p.data0.toNat) := by
  apply BitVec.eq_of_toNat_eq
  rw [value14, BitVec.toNat_setWidth, BitVec.toNat_or, BitVec.toNat_shiftLeft,
    BitVec.toNat_setWidth_of_le (by decide), BitVec.toNat_setWidth_of_le (by decide),
    Nat.mod_eq_of_lt (shiftLeft_seven_lt p.data1), BitVec.toNat_ofNat]

end Sys2Proof.Machine

namespace Sys2Proof.Proofs

open Sys2Proof.Machine

/-- Settles O48: the value is R107's on every pair of slots, and the sum by places on slots below 128. -/
theorem fourteenBitValueOfTheSlots : Obligations.FourteenBitValueOfTheSlots := by
  refine ⟨value14_eq_ofNat, fun p h0 h1 => ⟨value14_toNat ?slot0 ?slot1, ?bound⟩⟩
  case slot0 => exact Nat.lt_succ_of_le h0
  case slot1 => exact Nat.lt_succ_of_le h1
  case bound => exact Nat.le_of_lt_succ (value14 p).isLt

end Sys2Proof.Proofs
end

section
/-! Exceptions (60): no event faults, and under R19 every event answers (R113). -/

namespace Sys2Proof.Machine

open Sys2Proof.Safety

variable {b : Byte} {s : State}

/-- R19: the count that a completion re-arms is defined while a message waits for its last data byte. -/
theorem epc_defined_of_one (hinv : Inv s.parser) (hone : s.parser.pendingCount = .one) :
    ∃ n, epc s.parser.activeMessage = some n := by
  obtain ⟨⟨-, hzero⟩ | ⟨-, -, hcounts⟩, -, -⟩ := hinv
  · exact nomatch hone.symm.trans hzero
  · obtain ⟨hn, -⟩ | ⟨hn, -⟩ | ⟨hn, -⟩ | ⟨hn, -⟩ := hcounts <;> exact ⟨_, hn⟩

theorem startMessage_answers (hb : isNarrowStart b) (s : State) : ∃ t, startMessage b s = .next t := by
  obtain ⟨hstart, hrealtime⟩ := hb
  obtain ⟨_, hn⟩ := Option.isSome_iff_exists.mp (epc_isSome_of_start b hstart hrealtime)
  exact ⟨_, startMessage_of_epc hn⟩

/-- Only the last data byte of a message looks a count up, so only there is R19 needed. -/
theorem dataByte_answers (hinv : Inv s.parser) (b : Byte) : ∃ t, dataByte b s = .next t := by
  cases hcount : s.parser.pendingCount with
  | hold => exact ⟨_, dataByte_of_not_pending (.inr hcount) b⟩
  | zero => exact ⟨_, dataByte_of_not_pending (.inl hcount) b⟩
  | one =>
    obtain ⟨_, hn⟩ := epc_defined_of_one hinv hcount
    exact ⟨_, dataByte_of_one hcount hn b⟩
  | two => exact ⟨_, dataByte_of_two hcount b⟩

theorem perform_answers (hinv : Inv s.parser) (e : Event) : ∃ t, perform e s = .next t := by
  cases e with
  | reset => exact ⟨_, perform_reset⟩
  | idle => exact ⟨_, perform_idle⟩
  | accept b =>
    obtain hdata | hrealtime | hstart := data_or_realtime_or_narrowStart b
    · rw [perform_accept_of_data hdata]
      exact dataByte_answers hinv b
    · exact ⟨_, perform_accept_of_realtime hrealtime s⟩
    · rw [perform_accept_of_narrowStart hstart]
      exact startMessage_answers hstart s

end Sys2Proof.Machine

namespace Sys2Proof.Proofs

open Sys2Proof.Machine Sys2Proof.Safety

/-- Settles O13: there is no fault to answer with; a step is an event performed on the advanced state, whose parser
meets R19 as the one before did. -/
theorem noStepFaultsOrSticks : Obligations.NoStepFaultsOrSticks := by
  refine ⟨?noFault, ?answers⟩
  case noFault => exact fun _ f => nomatch f
  case answers =>
    intro s hinv
    rw [step_eq_perform]
    exact perform_answers (s := s.advance) hinv s.sample.event

end Sys2Proof.Proofs
end

section
/-! The encoding (30_encoding): the decoder and the encoder undo each other (R41, R50), and each byte has the pattern of
the table row of its class. -/

namespace Sys2Proof.Machine

open Sys2Proof.Safety

variable {i : Instr} {b : Byte}

/-! ## Decoding what was encoded -/

@[simp] theorem chField_channelByte (op : Selector) (ch : Channel) : chField (channelByte op ch) = ch := by
  revert op ch
  decide +kernel

@[simp] theorem msb_channelByte (op : Selector) (ch : Channel) : (channelByte op ch).msb = true := by
  revert op ch
  decide +kernel

/-- The decoder reads back the two fields that the encoder of a channel class has written. -/
theorem decodeByte_encodeByte (hi : i.wellFormed = true) : decodeByte (encodeByte i) = i := by
  cases i with
  | data b =>
    have hmsb : b.msb = false := by simpa [Instr.wellFormed] using hi
    exact decodeByte_of_data ((isMessageStart_eq_msb b).trans hmsb)
  | noteOff ch | noteOn ch | polyAftertouch ch | controlChange ch | programChange ch | channelPressure ch | pitchBend ch =>
    simp only [encodeByte, decodeByte, msb_channelByte, if_true, statusOf, opField_channelByte, chField_channelByte]
    rfl
  | sysex | mtcQuarterFrame | songPosition | songSelect | undefF4 | undefF5 | tuneRequest | endex => rfl
  | rtF8 | rtF9 | rtFA | rtFB | rtFC | rtFD | rtFE | rtFF => rfl

theorem wellFormed_decodeByte : ∀ b : Byte, (decodeByte b).wellFormed = true := by
  decide +kernel

theorem decodeTableWord_eq (nbits w : Nat) : decodeTableWord nbits w = some (decodeByte (tableByte nbits w)) := rfl

/-! ## The rows of the opcode table (R50) -/

theorem opcodeTable_rowOf (i : Instr) : ∃ row, opcodeTable[rowOf i]? = some row ∧ row.format = i.format := by
  cases i <;> exact ⟨_, rfl, rfl⟩

theorem rowMatches_iff_rowOf :
    ∀ (k : Fin opcodeTable.length) (b : Byte), rowMatches opcodeTable[k] b = true ↔ k.val = rowOf (decodeByte b) := by
  decide +kernel

end Sys2Proof.Machine

namespace Sys2Proof.Proofs

open Sys2Proof.Machine

/-- Settles O2: the decoder reads the one byte of the encoding and leaves the rest. -/
theorem decodeOfEncodeIsTheInstruction : Obligations.DecodeOfEncodeIsTheInstruction := by
  intro i rest hi
  rw [encode, List.singleton_append, decode, decodeByte_encodeByte hi]

/-- Settles O3: the instruction is the class of the byte. -/
theorem everyByteDecodesAndEncodesBack : Obligations.EveryByteDecodesAndEncodesBack := by
  intro b rest
  refine ⟨decodeByte b, wellFormed_decodeByte b, rfl, ?encoded⟩
  case encoded => rw [encode, encodeByte_decodeByte]

/-- Settles O1: nine decodings, computed. -/
theorem specWordsDecodeToTheirClasses : Obligations.SpecWordsDecodeToTheirClasses := by
  rw [Obligations.SpecWordsDecodeToTheirClasses]
  decide

/-- Settles O4: a row matches a byte only at the place of the byte's class, where the format is the class's. -/
theorem opcodeTableAgreesWithDecoder : Obligations.OpcodeTableAgreesWithDecoder := by
  refine ⟨rfl, fun b k row hrow => ?_⟩
  obtain ⟨hk, rfl⟩ := List.getElem?_eq_some_iff.mp hrow
  have hplace := rowMatches_iff_rowOf ⟨k, hk⟩ b
  refine ⟨hplace, fun hmatch => ?format⟩
  case format =>
    obtain ⟨row, hrowOf, hformat⟩ := opcodeTable_rowOf (decodeByte b)
    obtain rfl : k = rowOf (decodeByte b) := hplace.mp hmatch
    obtain rfl := Option.some.inj (hrow.symm.trans hrowOf)
    exact hformat

/-- Settles O18: the sample asks for the byte, whose class is what it decodes to. -/
theorem stepRunsTheDecodedByte : Obligations.StepRunsTheDecodedByte := by
  intro s i hreset hvalid hdecode _
  have hevent : s.sample.event = .accept s.sample.inByte := by simp [Sample.event, hreset, hvalid]
  obtain rfl : decodeByte s.sample.inByte = i := by simpa [decode] using hdecode
  rw [step_eq_perform, hevent]
  rfl

/-- Settles O19: the word stands at the ports, so the step accepts its byte. -/
theorem fetchWordIsTheNextInstruction : Obligations.FetchWordIsTheNextInstruction := by
  intro s nbits w i hdecode
  rw [decodeTableWord_eq, Option.some.injEq] at hdecode
  subst hdecode
  rw [step_eq_perform, State.withFetchWord, State.present_sample, Sample.event_ofByte, State.present_advance]
  rfl

end Sys2Proof.Proofs
end

section
/-! What one event can do to the parser (00_scope R9, 41 R64): one relation with a case per outcome, tied to `perform` both
ways. It speaks of no port sample and no earlier output, which no event reads. -/

namespace Sys2Proof.Machine

open Sys2Proof.Safety

/-- `Transition p e q o`: the event `e` takes the parser from `p` to `q` and puts out `o`. -/
inductive Transition (p : Parser) : Event → Parser → Output → Prop
  /-- R111. -/
  | reset : Transition p .reset Parser.reset .quiet
  /-- R112. -/
  | idle : Transition p .idle p .quiet
  /-- R65: a realtime byte. -/
  | realtime {b : Byte} (hb : isRealtime b = true) : Transition p (.accept b) p (.message b)
  /-- R66, R67: a byte that starts a message of count `n`. -/
  | start {b : Byte} {n : PendingCount} (hn : epc b = some n) :
      Transition p (.accept b) { p with activeMessage := b, pendingCount := n } (startOutput b n)
  /-- R69: a data byte while nothing is pending. -/
  | discard {b : Byte} (hb : isData b) (hp : p.pendingCount = .zero ∨ p.pendingCount = .hold) :
      Transition p (.accept b) p .noMessage
  /-- R68: the first of two parameters. -/
  | first {b : Byte} (hb : isData b) (hp : p.pendingCount = .two) :
      Transition p (.accept b) { p with data0 := b, pendingCount := .one } .noMessage
  /-- R68, R70: the last parameter, which completes the message and re-arms its count. -/
  | last {b : Byte} {n : PendingCount} (hb : isData b) (hp : p.pendingCount = .one) (hn : epc p.activeMessage = some n) :
      Transition p (.accept b) { p with data1 := b, pendingCount := n } (.message p.activeMessage)

variable {b : Byte} {e : Event} {s t u : State} {p q : Parser} {o : Output}

/-! ## `Transition` is `perform`, and the parser's part of `step` -/

theorem transition_of_perform (h : perform e s = .next t) : Transition s.parser e t.parser t.output := by
  cases e with
  | reset =>
    cases h
    exact .reset
  | idle =>
    cases h
    exact .idle
  | accept b =>
    obtain hdata | hrealtime | hstart := data_or_realtime_or_narrowStart b
    · rw [perform_accept_of_data hdata] at h
      obtain ⟨hp, rfl⟩ | ⟨hp, rfl⟩ | ⟨hp, _, hn, rfl⟩ := dataByte_cases h
      · exact .discard hdata hp
      · exact .first hdata hp
      · exact .last hdata hp hn
    · rw [perform_accept_of_realtime hrealtime] at h
      cases h
      exact .realtime hrealtime
    · rw [perform_accept_of_narrowStart hstart] at h
      obtain ⟨_, hn, rfl⟩ := startMessage_cases h
      exact .start hn

theorem perform_of_transition (h : Transition s.parser e q o) : perform e s = .next (s.finish q o) := by
  cases h with
  | reset => exact perform_reset
  | idle => exact perform_idle
  | realtime hb => exact perform_accept_of_realtime hb s
  | start hn => exact perform_accept_of_epc hn s
  | discard hb hp => exact (perform_accept_of_data hb s).trans (dataByte_of_not_pending hp _)
  | first hb hp => exact perform_accept_first_of_two hb hp
  | last hb hp hn => exact perform_accept_last hb hp hn

theorem perform_inputs (h : perform e s = .next t) : t.inputs = s.inputs := by
  rw [perform_finish h, State.finish_inputs]

theorem transition_of_step (h : step s = .next t) : Transition s.parser s.sample.event t.parser t.output :=
  transition_of_perform (s := s.advance) h

theorem step_of_transition (h : Transition s.parser s.sample.event q o) : step s = .next (s.advance.finish q o) :=
  perform_of_transition (s := s.advance) h

theorem step_inputs (h : step s = .next t) : t.inputs = s.inputs.tail :=
  perform_inputs (s := s.advance) h

end Sys2Proof.Machine
end

section
/-! The invariants of a step (10_state R19, 95 section 5): the control values of R19 count by count, and what every
transition keeps. -/

namespace Sys2Proof.Machine

open Sys2Proof.Safety

variable {b am : Byte} {e : Event} {n : PendingCount} {p p' q : Parser} {o : Output}

/-! ## R19, the control part, by `pendingCount` -/

theorem controlInv_hold_iff : ∀ am : Byte, ControlInv am .hold ↔ am = 0xF0 := by
  decide +kernel

theorem controlInv_zero_iff : ∀ am : Byte, ControlInv am .zero ↔ am = 0 ∨ epc am = some .zero := by
  decide +kernel

theorem controlInv_one_iff : ∀ am : Byte, ControlInv am .one ↔ epc am = some .one ∨ epc am = some .two := by
  decide +kernel

theorem controlInv_two_iff : ∀ am : Byte, ControlInv am .two ↔ epc am = some .two := by
  decide +kernel

theorem controlInv_of_epc (hn : epc b = some n) : ControlInv b n := by
  cases n with
  | hold => exact (controlInv_hold_iff b).mpr ((epc_eq_hold_iff b).mp hn)
  | zero => exact (controlInv_zero_iff b).mpr (.inr hn)
  | one => exact (controlInv_one_iff b).mpr (.inl hn)
  | two => exact (controlInv_two_iff b).mpr hn

theorem controlInv_one_of_two (h : ControlInv am .two) : ControlInv am .one :=
  (controlInv_one_iff am).mpr (.inr ((controlInv_two_iff am).mp h))

theorem le_of_data (hb : isData b) : b ≤ 0x7F#8 :=
  Nat.le_of_lt_succ (toNat_lt_of_data hb)

/-! ## R19 is kept -/

theorem inv_reset : Inv Parser.reset :=
  ⟨.inl ⟨rfl, rfl⟩, by decide, by decide⟩

/-- A start sets both control values by its count; a first parameter takes 2 to 1; a last one re-arms the count. -/
theorem Transition.inv (h : Transition p e q o) (hp : Inv p) : Inv q := by
  obtain ⟨hcontrol, h0, h1⟩ := hp
  cases h with
  | reset => exact inv_reset
  | idle | realtime | discard => exact ⟨hcontrol, h0, h1⟩
  | start hn => exact ⟨controlInv_of_epc hn, h0, h1⟩
  | first hb htwo =>
    rw [htwo] at hcontrol
    exact ⟨controlInv_one_of_two hcontrol, le_of_data hb, h1⟩
  | last hb _ hn => exact ⟨controlInv_of_epc hn, h0, le_of_data hb⟩

/-! ## With no message yet both slots are 0 (95 section 5) -/

theorem ne_zero_of_epc (hn : epc am = some n) : am ≠ 0x00#8 := by
  rintro rfl
  exact nomatch hn.symm.trans (epc_eq_none_of_data 0x00#8 rfl)

theorem Transition.reachableShape (h : Transition p e q o) (hp : ReachableShape p) : ReachableShape q := by
  refine ⟨h.inv hp.1, ?slots⟩
  case slots =>
    obtain ⟨⟨hcontrol, -, -⟩, hslots⟩ := hp
    cases h with
    | reset => exact fun _ => ⟨rfl, rfl⟩
    | idle | realtime | discard => exact hslots
    | start hn => exact fun hzero => absurd hzero (ne_zero_of_epc hn)
    | first _ htwo =>
      rw [htwo, controlInv_two_iff] at hcontrol
      exact fun hzero => absurd hzero (ne_zero_of_epc hcontrol)
    | last _ _ hn => exact fun hzero => absurd hzero (ne_zero_of_epc hn)

/-! ## No transition reads a slot -/

/-- The parsers agree on everything but the slots. -/
def EqualControl (p q : Parser) : Prop :=
  p.activeMessage = q.activeMessage ∧ p.pendingCount = q.pendingCount

theorem Transition.of_equalControl (h : Transition p e q o) (hc : EqualControl p p') :
    ∃ q', Transition p' e q' o ∧ EqualControl q q' := by
  have ⟨ham, hcount⟩ := hc
  cases h with
  | reset => exact ⟨_, .reset, rfl, rfl⟩
  | idle => exact ⟨_, .idle, hc⟩
  | realtime hb => exact ⟨_, .realtime hb, hc⟩
  | start hn => exact ⟨_, .start hn, rfl, rfl⟩
  | discard hb hp => exact ⟨_, .discard hb (hcount ▸ hp), hc⟩
  | first hb hp => exact ⟨_, .first hb (hcount ▸ hp), ham, rfl⟩
  | last hb hp hn =>
    rw [ham] at hn ⊢
    exact ⟨_, .last hb (hcount ▸ hp) hn, rfl, rfl⟩

end Sys2Proof.Machine

namespace Sys2Proof.Proofs

open Sys2Proof.Machine Sys2Proof.Safety

/-- Settles O12: each transition keeps R19. -/
theorem everyStepKeepsTheInvariant : Obligations.EveryStepKeepsTheInvariant :=
  fun _ _ hinv h => (transition_of_step h).inv hinv

/-- Settles O54: a parser that collects parameters has a message, so only a reset leads back to no message. -/
theorem everyStepKeepsTheReachableShape : Obligations.EveryStepKeepsTheReachableShape :=
  fun _ _ hshape h => (transition_of_step h).reachableShape hshape

/-- Settles O55: the two states sample the same event, and the transition reads the control values alone. -/
theorem equalControlIsKeptByEveryStep : Obligations.EqualControlIsKeptByEveryStep := by
  intro s u t ham hcount hinputs h
  have hevent : s.sample.event = u.sample.event := by rw [State.sample, State.sample, hinputs]
  have htransition := transition_of_step h
  rw [hevent] at htransition
  obtain ⟨q, hq, ham', hcount'⟩ := htransition.of_equalControl ⟨ham, hcount⟩
  refine ⟨_, step_of_transition hq, ham', hcount', ?inputs, rfl⟩
  case inputs => rw [step_inputs h, hinputs, State.finish_inputs, State.advance_inputs]

/-- Settles O11: no message, nothing pending and both slots 0 meet R19. -/
theorem resetStateMeetsTheInvariant : Obligations.ResetStateMeetsTheInvariant :=
  inv_reset

/-- Settles O16: the pairs are counted over all bytes. -/
theorem controlValuesNumber202 : Obligations.ControlValuesNumber202 := by
  refine ⟨?two, ?one, ?zero, ?hold⟩ <;> decide +kernel

end Sys2Proof.Proofs
end

section
/-! Runs of events (00_scope R9, R36): a relation between parsers that transitions respect is respected by runs; runs put one
after another; the run that the host makes of the samples of the events. -/

namespace Sys2Proof.Machine

open Sys2Proof.Safety

variable {e : Event} {events before after rest : List Event} {s t u v : State} {p p' : Parser} {outs : List Output}

/-! ## Runs, put together -/

theorem runEvents_of_perform (h : perform e s = .next t) :
    runEvents s (e :: rest) = (runEvents t rest).map fun r => (r.1, t.output :: r.2) := by
  rw [runEvents]
  simp only [h]
  cases runEvents t rest <;> rfl

theorem runEvents_append : ∀ {s : State} {outs : List Output}, runEvents s before = some (u, outs) →
    runEvents s (before ++ after) = (runEvents u after).map fun r => (r.1, outs ++ r.2) := by
  induction before with
  | nil =>
    intro s outs h
    simp only [runEvents_nil, Option.some.injEq, Prod.mk.injEq] at h
    obtain ⟨rfl, rfl⟩ := h
    exact (congrFun Option.map_id _).symm
  | cons e before ih =>
    intro s outs h
    obtain ⟨t, later, ht, hrest, rfl⟩ := runEvents_cons_cases h
    rw [List.cons_append, runEvents_of_perform ht, ih hrest, Option.map_map]
    rfl

/-! ## What a run from a state that meets R19 does -/

theorem runEvents_answers (events : List Event) : ∀ {s : State}, Inv s.parser →
    ∃ t outs, runEvents s events = some (t, outs) ∧ outs.length = events.length ∧ Inv t.parser := by
  induction events with
  | nil => exact fun hinv => ⟨_, [], runEvents_nil, rfl, hinv⟩
  | cons e events ih =>
    intro s hinv
    obtain ⟨t, ht⟩ := perform_answers hinv e
    obtain ⟨u, outs, hrun, hlength, hu⟩ := ih ((transition_of_perform ht).inv hinv)
    exact ⟨u, _, runEvents_cons ht hrun, congrArg (· + 1) hlength, hu⟩

/-! ## Two runs of the same events -/

/-- Whatever `p` can do, `p'` can do with the same output, and `R` holds again. -/
def Simulation (R : Parser → Parser → Prop) : Prop :=
  ∀ ⦃p p' : Parser⦄ ⦃e : Event⦄ ⦃q : Parser⦄ ⦃o : Output⦄, R p p' → Transition p e q o →
    ∃ q', Transition p' e q' o ∧ R q q'

theorem Simulation.runEvents {R : Parser → Parser → Prop} (hR : Simulation R) :
    ∀ {events : List Event} {s u : State} {outs : List Output}, R s.parser u.parser →
      runEvents s events = some (t, outs) → ∃ v, runEvents u events = some (v, outs) ∧ R t.parser v.parser := by
  intro events
  induction events with
  | nil =>
    intro s u outs hsu h
    simp only [runEvents_nil, Option.some.injEq, Prod.mk.injEq] at h
    obtain ⟨rfl, rfl⟩ := h
    exact ⟨u, runEvents_nil, hsu⟩
  | cons e events ih =>
    intro s u outs hsu h
    obtain ⟨s', later, hs', hrest, rfl⟩ := runEvents_cons_cases h
    obtain ⟨q, hq, hR'⟩ := hR hsu (transition_of_perform hs')
    obtain ⟨v, hv, htv⟩ := ih (u := u.finish q s'.output) hR' hrest
    have hrun := runEvents_cons (perform_of_transition hq) hv
    exact ⟨v, hrun, htv⟩

theorem simulation_equalControl : Simulation EqualControl :=
  fun _ _ _ _ _ hc h => h.of_equalControl hc

theorem simulation_eq : Simulation Eq :=
  fun _ _ _ q _ hp h => ⟨q, hp ▸ h, rfl⟩

theorem observe_eq_some_iff {r : Option (State × List Output)} :
    observe r = some (p, outs) ↔ ∃ t, r = some (t, outs) ∧ t.parser = p := by
  simp [observe]

/-- What a run observably does depends on the parser it starts from, not on the output before or the samples to come. -/
theorem observe_runEvents_congr (h : s.parser = u.parser) (events : List Event) :
    observe (runEvents s events) = observe (runEvents u events) := by
  have transfer {s u : State} (h : s.parser = u.parser) (x : Parser × List Output)
      (hx : observe (runEvents s events) = some x) : observe (runEvents u events) = some x := by
    obtain ⟨t, ht, htx⟩ := observe_eq_some_iff.mp hx
    obtain ⟨v, hv, htv⟩ := simulation_eq.runEvents h ht
    exact observe_eq_some_iff.mpr ⟨v, hv, htv.symm.trans htx⟩
  exact Option.ext fun x => ⟨transfer h x, transfer h.symm x⟩

/-! ## Reset and idle in a run -/

theorem observe_runEvents_idle (s : State) (rest : List Event) :
    observe (runEvents s (.idle :: rest)) = (observe (runEvents s rest)).map fun x => (x.1, .quiet :: x.2) := by
  have hsame : observe (runEvents (s.finish s.parser .quiet) rest) = observe (runEvents s rest) :=
    observe_runEvents_congr (State.finish_parser s s.parser .quiet) rest
  rw [← hsame, runEvents_of_perform perform_idle, observe, observe, Option.map_map, Option.map_map]
  rfl

theorem observe_runEvents_append (h : runEvents s before = some (u, outs)) :
    observe (runEvents s (before ++ after)) = (observe (runEvents u after)).map fun x => (x.1, outs ++ x.2) := by
  rw [runEvents_append h, observe, observe, Option.map_map, Option.map_map]
  rfl

/-! ## The host's run -/

/-- What stands at the ports later does not enter an event. -/
theorem perform_with_inputs (h : perform e s = .next t) (later : List Sample) :
    perform e { s with inputs := later } = .next { t with inputs := later } := by
  have htransition := transition_of_perform h
  exact perform_of_transition (s := { s with inputs := later }) htransition

theorem run_core_succ_iff (k : Nat) : Host.Core.run Sys2Proof.core (k + 1) s = .next t ↔
    ∃ u : State, step s = .next u ∧ Host.Core.run Sys2Proof.core k u = .next t := by
  constructor
  · intro h
    cases hstep : step s with
    | next u => exact ⟨u, rfl, (run_succ_of_next (M := Sys2Proof.core) hstep k).symm.trans h⟩
    | refused r => exact nomatch (run_succ_of_refused (M := Sys2Proof.core) hstep k).symm.trans h
    | fault f => exact nomatch f
  · rintro ⟨u, hstep, hrun⟩
    exact (run_succ_of_next (M := Sys2Proof.core) hstep k).trans hrun

theorem step_of_inputs {later : List Sample} (h : s.inputs = Sample.ofEvent e :: later) :
    step s = perform e { s with inputs := later } := by
  rw [step_eq_perform, State.sample, State.advance, h, List.headD_cons, Sample.event_ofEvent, List.tail_cons]

theorem run_core_iff_runEvents {later : List Sample} : ∀ {events : List Event} {s : State},
    s.inputs = events.map Sample.ofEvent ++ later →
      (Host.Core.run Sys2Proof.core events.length s = .next t ↔
        ∃ outs, runEvents { s with inputs := later } events = some (t, outs)) := by
  intro events
  induction events with
  | nil =>
    rintro s rfl
    constructor
    · intro h
      cases h
      exact ⟨[], runEvents_nil⟩
    · rintro ⟨_, h⟩
      cases h
      rfl
  | cons e events ih =>
    intro s hinputs
    rw [List.length_cons, run_core_succ_iff, step_of_inputs hinputs]
    constructor
    · rintro ⟨u, hu, hrun⟩
      obtain ⟨outs, hrest⟩ := (ih (perform_inputs hu)).mp hrun
      exact ⟨_, runEvents_cons (perform_with_inputs hu later) hrest⟩
    · rintro ⟨_, h⟩
      obtain ⟨u, outs, hu, hrest, -⟩ := runEvents_cons_cases h
      have hlater : u.inputs = later := perform_inputs hu
      subst hlater
      exact ⟨_, perform_with_inputs hu _, (ih rfl).mpr ⟨outs, hrest⟩⟩

end Sys2Proof.Machine

namespace Sys2Proof.Proofs

open Sys2Proof.Machine Sys2Proof.Safety

/-- Settles O14: R19 holds at reset, each event answers under it, and each transition keeps it. -/
theorem runsFromResetNeverStop : Obligations.RunsFromResetNeverStop :=
  fun events => runEvents_answers events inv_reset

/-- Settles O20: the reset event leaves the reset parser, and a run depends on the parser alone. -/
theorem resetEventGivesAFreshInstance : Obligations.ResetEventGivesAFreshInstance := by
  intro s
  refine ⟨rfl, fun t h => ?_⟩
  cases h
  exact ⟨rfl, rfl, rfl, observe_runEvents_congr (u := State.reset) (State.finish_parser s Parser.reset .quiet)⟩

/-- Settles O21: the sample asks for the reset event, whatever else stands at the ports. -/
theorem resetWinsOverAByte : Obligations.ResetWinsOverAByte := by
  intro s b valid later hinputs
  have hevent : s.sample.event = .reset := by rw [State.sample, hinputs, List.headD_cons, Sample.event, if_pos rfl]
  rw [step_eq_perform, hevent, perform_reset, State.finish, State.advance, hinputs, List.tail_cons]

/-- Settles O22: the idle event keeps the parser, so the events after it run as they would without it. -/
theorem idleChangesNoRegister : Obligations.IdleChangesNoRegister := by
  refine ⟨?step, ?run⟩
  case step =>
    intro s hreset hvalid
    have hevent : s.sample.event = .idle := by simp [Sample.event, hreset, hvalid]
    rw [step_eq_perform, hevent, perform_idle]
    rfl
  case run =>
    intro s u before after outs h
    rw [observe_runEvents_append h, observe_runEvents_idle, Option.map_map]
    rfl

/-- Settles O23: each step of the host takes one sample and performs its event. -/
theorem hostRunPerformsTheEventsInOrder : Obligations.HostRunPerformsTheEventsInOrder :=
  fun _ _ _ _ hinputs => run_core_iff_runEvents hinputs

/-- Settles O47: agreement on everything but the slots is a simulation. -/
theorem slotsNeverInfluenceControl : Obligations.SlotsNeverInfluenceControl := by
  intro s u t events outs ham hcount h
  obtain ⟨v, hv, ham', hcount'⟩ := simulation_equalControl.runEvents ⟨ham, hcount⟩ h
  exact ⟨v, hv, ham'.symm, hcount'.symm⟩

end Sys2Proof.Proofs
end

section
/-! Streams with realtime bytes in them (60 R120). -/

namespace Sys2Proof.Machine

open Sys2Proof.Safety

variable {b : Byte} {s t : State} {bytes : List Byte} {outs : List Output}

theorem feed_cons_cases (h : feed s (b :: bytes) = some (t, outs)) :
    ∃ u later, perform (.accept b) s = .next u ∧ feed u bytes = some (t, later) ∧ outs = u.output :: later :=
  runEvents_cons_cases h

/-- What is left of a stream and its outputs without the realtime bytes. -/
def ownOutputs (bytes : List Byte) (outs : List Output) : List Output :=
  ((bytes.zip outs).filter fun x => !isRealtime x.1).map Prod.snd

theorem ownOutputs_cons_of_realtime (hb : isRealtime b = true) (o : Output) :
    ownOutputs (b :: bytes) (o :: outs) = ownOutputs bytes outs := by
  simp [ownOutputs, hb]

theorem ownOutputs_cons_of_not_realtime (hb : isRealtime b = false) (o : Output) :
    ownOutputs (b :: bytes) (o :: outs) = o :: ownOutputs bytes outs := by
  simp [ownOutputs, hb]

/-- A realtime byte leaves the parser as it found it, so the rest of the stream runs as it would without it. -/
theorem feed_without_realtime : ∀ {bytes : List Byte} {s : State} {outs : List Output}, feed s bytes = some (t, outs) →
    ∃ u, feed s (bytes.filter fun b => !isRealtime b) = some (u, ownOutputs bytes outs) ∧ u.parser = t.parser := by
  intro bytes
  induction bytes with
  | nil =>
    intro s outs h
    cases h
    exact ⟨_, feed_nil, rfl⟩
  | cons b bytes ih =>
    intro s outs h
    obtain ⟨s', later, hs', hrest, rfl⟩ := feed_cons_cases h
    obtain ⟨u, hu, hut⟩ := ih hrest
    by_cases hb : isRealtime b = true
    · have hsame : s'.parser = s.parser := by
        rw [perform_accept_of_realtime hb] at hs'
        exact realtimeReturn_parser hs'
      obtain ⟨v, hv, huv⟩ := simulation_eq.runEvents hsame hu
      rw [ownOutputs_cons_of_realtime hb, List.filter_cons_of_neg (by simp [hb])]
      exact ⟨v, hv, huv.symm.trans hut⟩
    · rw [Bool.not_eq_true] at hb
      rw [ownOutputs_cons_of_not_realtime hb, List.filter_cons_of_pos (by simp [hb])]
      exact ⟨u, feed_cons hs' hu, hut⟩

theorem feed_realtime_output : ∀ {bytes : List Byte} {s : State} {outs : List Output}, feed s bytes = some (t, outs) →
    ∀ x ∈ bytes.zip outs, isRealtime x.1 = true → x.2 = .message x.1 := by
  intro bytes
  induction bytes with
  | nil => exact fun _ => nofun
  | cons b bytes ih =>
    intro s outs h
    obtain ⟨s', later, hs', hrest, rfl⟩ := feed_cons_cases h
    rw [List.zip_cons_cons, List.forall_mem_cons]
    refine ⟨fun (hb : isRealtime b = true) => ?head, ih hrest⟩
    case head =>
      rw [perform_accept_of_realtime hb] at hs'
      cases hs'
      rfl

end Sys2Proof.Machine

namespace Sys2Proof.Proofs

open Sys2Proof.Machine Sys2Proof.Safety

/-- Settles O25: taking the realtime bytes out changes neither the parser nor what the other bytes put out. -/
theorem realtimeBytesNeverDisturbAStream : Obligations.RealtimeBytesNeverDisturbAStream :=
  fun _ _ _ _ h => ⟨feed_without_realtime h, feed_realtime_output h⟩

/-- Settles O45: data and realtime bytes pass a parser at rest. -/
theorem restDiscardsUntilTheNextStart : Obligations.RestDiscardsUntilTheNextStart :=
  fun _ _ hs hbytes => feed_of_pass (.inl hs) hbytes

end Sys2Proof.Proofs
end

section
/-! Runs from reset: the parsers they reach (95 section 5), and the validity window of the accessors (45 R108). -/

namespace Sys2Proof.Machine

open Sys2Proof.Safety

variable {e : Event} {b : Byte} {n : PendingCount} {p q : Parser} {o : Output} {h : List (Event × Output)}

/-! ## Histories: the transitions of a run from reset, newest first -/

/-- The events of `h` and their outputs, from the newest back, lead from reset to the parser. -/
inductive History : List (Event × Output) → Parser → Prop
  | reset : History [] Parser.reset
  | step {h : List (Event × Output)} {p q : Parser} {e : Event} {o : Output} (hp : History h p)
      (hpq : Transition p e q o) : History ((e, o) :: h) q

theorem history_append_of_run {t : State} : ∀ {events : List Event} {s : State} {outs : List Output}
    {h : List (Event × Output)}, History h s.parser → runEvents s events = some (t, outs) →
      History ((events.zip outs).reverse ++ h) t.parser := by
  intro events
  induction events with
  | nil =>
    intro s outs h hs hrun
    cases hrun
    exact hs
  | cons e events ih =>
    intro s outs h hs hrun
    obtain ⟨u, later, hu, hrest, rfl⟩ := runEvents_cons_cases hrun
    have hlater := ih (hs.step (transition_of_perform hu)) hrest
    rwa [List.zip_cons_cons, List.reverse_cons, List.append_assoc]

theorem history_of_run {events : List Event} {t : State} {outs : List Output}
    (hrun : runEvents State.reset events = some (t, outs)) : History (events.zip outs).reverse t.parser := by
  have hhistory := history_append_of_run .reset hrun
  rwa [List.append_nil] at hhistory

theorem History.reachableShape (hp : History h p) : ReachableShape p := by
  induction hp with
  | reset => exact ⟨inv_reset, fun _ => ⟨rfl, rfl⟩⟩
  | step _ hpq ih => exact hpq.reachableShape ih

/-! ## Every parser of the reachable shape is reached (95 section 5) -/

/-- A run from reset ends in the parser. -/
def Reachable (p : Parser) : Prop :=
  ∃ (events : List Event) (t : State) (outs : List Output), runEvents State.reset events = some (t, outs) ∧ t.parser = p

theorem reachable_reset : Reachable Parser.reset :=
  ⟨[], State.reset, [], runEvents_nil, rfl⟩

theorem Reachable.step (hp : Reachable p) (hpq : Transition p e q o) : Reachable q := by
  obtain ⟨events, t, outs, hrun, rfl⟩ := hp
  refine ⟨events ++ [e], t.finish q o, outs ++ [o], ?_, rfl⟩
  rw [runEvents_append hrun, runEvents_of_perform (perform_of_transition hpq)]
  rfl

/-- A whole note-off message puts any two data bytes into the slots, and the status byte then keeps them. -/
theorem reachable_of_epc {x y : Byte} (hn : epc b = some n) (hx : isData x) (hy : isData y) :
    Reachable { activeMessage := b, pendingCount := n, data0 := x, data1 := y } := by
  have hnoteOff : epc 0x80 = some .two := rfl
  have hstatus : Reachable { Parser.reset with activeMessage := 0x80, pendingCount := .two } :=
    reachable_reset.step (.start hnoteOff)
  exact ((hstatus.step (.first hx rfl)).step (.last hy rfl hnoteOff)).step (.start hn)

theorem data_of_le {x : Byte} (hx : x ≤ 0x7F#8) : isData x := by
  rw [isData, Bool.eq_false_iff, ne_eq, isMessageStart_iff]
  exact Nat.not_le_of_lt (Nat.lt_succ_of_le hx)

/-- With a message the count is that of its status byte, or 1 after the first of two parameters. -/
theorem epc_of_controlInv {am : Byte} (hcontrol : ControlInv am n) (ham : am ≠ 0) :
    epc am = some n ∨ n = .one ∧ epc am = some .two := by
  cases n with
  | hold => exact .inl ((epc_eq_hold_iff am).mpr ((controlInv_hold_iff am).mp hcontrol))
  | zero => exact .inl (((controlInv_zero_iff am).mp hcontrol).resolve_left ham)
  | one => exact ((controlInv_one_iff am).mp hcontrol).imp_right fun htwo => ⟨rfl, htwo⟩
  | two => exact .inl ((controlInv_two_iff am).mp hcontrol)

theorem reachable_of_reachableShape (hp : ReachableShape p) : Reachable p := by
  obtain ⟨am, n, x, y⟩ := p
  obtain ⟨⟨hcontrol, hx, hy⟩, hslots⟩ := hp
  by_cases ham : am = 0
  · obtain ⟨rfl, rfl⟩ := hslots ham
    subst ham
    obtain rfl : n = .zero := by simpa [ControlInv] using hcontrol
    exact reachable_reset
  · obtain hn | ⟨rfl, hn⟩ := epc_of_controlInv hcontrol ham
    · exact reachable_of_epc hn (data_of_le hx) (data_of_le hy)
    · exact (reachable_of_epc hn (data_of_le hx) (data_of_le hy)).step (.first (data_of_le hx) rfl)

/-! ## The validity window (R108) -/

/-- R19: a message in collection re-arms to 1 or 2. -/
theorem epc_one_or_two (hinv : Inv p) (hone : p.pendingCount = .one) :
    epc p.activeMessage = some .one ∨ epc p.activeMessage = some .two := by
  obtain ⟨hcontrol, -, -⟩ := hinv
  rwa [hone, controlInv_one_iff] at hcontrol

/-- The byte heard last is the first parameter of the message, and is in `data[0]`. -/
def HeardFirst (h : List (Event × Output)) (p : Parser) : Prop :=
  ∃ (a : Byte) (rest : List Byte), heardBytes h = a :: rest ∧ isData a ∧ data0Port p = a

/-- A message of two parameters waits for its second one only after its first. -/
theorem History.heardFirst (hp : History h p) :
    p.pendingCount = .one → epc p.activeMessage = some .two → HeardFirst h p := by
  induction hp with
  | reset => exact nofun
  | step hp hpq ih =>
    intro hone htwo
    cases hpq with
    | reset => exact nomatch hone
    | idle => exact ih hone htwo
    | realtime hb =>
      obtain ⟨a, rest, hheard, ha⟩ := ih hone htwo
      exact ⟨a, rest, (if_pos hb).trans hheard, ha⟩
    | start hn =>
      obtain rfl := hone
      exact nomatch hn.symm.trans htwo
    | discard _ hcount => rw [hone] at hcount; simp at hcount
    | first hb _ => exact ⟨_, _, if_neg (by simp [isRealtime_of_data hb]), hb, rfl⟩
    | last _ _ hn =>
      obtain rfl := hone
      exact nomatch hn.symm.trans htwo

/-- The accessors describe no message after an accepted byte that returned nothing. -/
theorem not_describes_of_noMessage : ¬ Describes ((.accept b, .noMessage) :: h) p := by
  rintro ⟨_, _, hlast, -⟩
  cases hlast

theorem not_describes_of_start (hb : ¬ isData b) : ¬ Describes ((.accept b, o) :: h) p := by
  rintro ⟨_, _, hlast, -, hdata, -⟩
  cases hlast
  exact hb hdata

theorem not_data_of_start (hb : isMessageStart b = true) : ¬ isData b := by
  simp [isData, hb]

theorem windowOpen_of_start (hn : epc b = some n) : windowOpen ((.accept b, startOutput b n) :: h) = false := by
  cases n <;> simp [startOutput, windowOpen, hn]

theorem windowOpen_of_realtime (hb : isRealtime b = true) : windowOpen ((.accept b, .message b) :: h) = false := by
  simp [windowOpen, epc_eq_none_of_realtime b hb]

theorem windowOpen_of_last {c : Byte} (hc : epc c = some .one ∨ epc c = some .two) :
    windowOpen ((.accept b, .message c) :: h) = true := by
  obtain hc | hc := hc <;> simp [windowOpen, hc]

/-- The last parameter goes to `data[1]` and is heard right after what was heard before. -/
theorem describes_of_last (hb : isData b) (hfirst : epc p.activeMessage = some .two → HeardFirst h p) :
    Describes ((.accept b, .message p.activeMessage) :: h) { p with data1 := b, pendingCount := n } :=
  ⟨b, heardBytes h, rfl, if_neg (by simp [isRealtime_of_data hb]), hb, rfl, hfirst⟩

theorem History.windowOpen_iff_describes (hp : History h p) : windowOpen h = true ↔ Describes h p := by
  induction hp with
  | reset => exact ⟨nofun, fun ⟨_, _, hlast, _⟩ => nomatch hlast⟩
  | step hp hpq ih =>
    cases hpq with
    | reset => exact ⟨nofun, fun ⟨_, _, hlast, _⟩ => nomatch hlast⟩
    | idle => exact ih
    | realtime hb =>
      simp [windowOpen_of_realtime hb, not_describes_of_start (not_data_of_start (isMessageStart_of_realtime _ hb))]
    | start hn =>
      simp [windowOpen_of_start hn, not_describes_of_start (not_data_of_start (isNarrowStart_of_epc hn).1)]
    | discard | first => exact ⟨nofun, fun hd => absurd hd not_describes_of_noMessage⟩
    | last hb hone _ =>
      have hopen := epc_one_or_two hp.reachableShape.1 hone
      exact iff_of_true (windowOpen_of_last hopen) (describes_of_last hb (hp.heardFirst hone))

end Sys2Proof.Machine

namespace Sys2Proof.Proofs

open Sys2Proof.Machine Sys2Proof.Safety

/-- Settles O15: transitions keep the shape from reset on, and a parser of that shape is built up by one whole message to
fill the slots, its own status byte, and the first parameter once more where only the second is missing. -/
theorem reachableParsersAreExactlyTheShape : Obligations.ReachableParsersAreExactlyTheShape := by
  refine fun p => ⟨?shape, reachable_of_reachableShape⟩
  case shape =>
    rintro ⟨events, t, outs, hrun, rfl⟩
    exact (history_of_run hrun).reachableShape

/-- Settles O51: along the history of the run the window opens with the last parameter of a message, which completes what
the accessors describe, and closes with every other accepted byte and with reset. -/
theorem windowIsOpenExactlyWhenAccessorsDescribe : Obligations.WindowIsOpenExactlyWhenAccessorsDescribe :=
  fun _ _ _ hrun => (history_of_run hrun).windowOpen_iff_describes

end Sys2Proof.Proofs
end

section
/-! `Accept` (41): the meanings against the rule's pseudocode (R64), the one refusal (D9), what an accepted byte writes, puts
out and does to the mode (R69, R74, R76). -/

namespace Sys2Proof.Machine

open Sys2Proof.Safety

variable {b : Byte} {e : Event} {i : Instr} {n : PendingCount} {s t : State} {p q : Parser} {o : Output} {r : Refusal}

/-! ## The operand of each format -/

theorem isNarrowStart_encodeByte (hf : i.format = .s ∨ i.format = .c) : isNarrowStart (encodeByte i) := by
  have hi : i.wellFormed = true := by
    cases i with
    | data => simp [Instr.format] at hf
    | _ => rfl
  obtain hdata | hrealtime | hstart := data_or_realtime_or_narrowStart (encodeByte i)
  · have hformat := format_decodeByte_of_data _ hdata
    rw [decodeByte_encodeByte hi] at hformat
    simp [hformat] at hf
  · have hformat := format_decodeByte_of_realtime _ hrealtime
    rw [decodeByte_encodeByte hi] at hformat
    simp [hformat] at hf
  · exact hstart

theorem format_eq_d_iff : i.format = .d ↔ ∃ b, i = .data b := by
  cases i <;> simp [Instr.format]

theorem exec_data (b : Byte) (s : State) : exec (.data b) s = dataByte b s := rfl

/-! ## The one refusal (92 D9) -/

theorem dataByte_of_undefined (hp : s.parser.pendingCount = .one) (hn : epc s.parser.activeMessage = none) (b : Byte) :
    dataByte b s = .refused .epcOutsideDomain := by
  simp [dataByte, hp, PendingCount.take?, completionCheck, Parser.setData, hn]

theorem dataByte_refused_iff : dataByte b s = .refused r ↔
    r = .epcOutsideDomain ∧ s.parser.pendingCount = .one ∧ epc s.parser.activeMessage = none := by
  cases hp : s.parser.pendingCount with
  | zero => simp [dataByte_of_not_pending (.inl hp)]
  | hold => simp [dataByte_of_not_pending (.inr hp)]
  | two => simp [dataByte_of_two hp]
  | one =>
    cases hn : epc s.parser.activeMessage with
    | some n => simp [dataByte_of_one hp hn]
    | none => simp [dataByte_of_undefined hp hn, eq_comm]

theorem exec_not_refused (hf : i.format ≠ .d) : exec i s ≠ .refused r := by
  cases h : i.format with
  | d => exact absurd h hf
  | r =>
    rw [exec_of_realtime h]
    exact nofun
  | s | c =>
    have hstatus : i.format = .s ∨ i.format = .c := by simp [h]
    obtain ⟨t, ht⟩ := startMessage_answers (isNarrowStart_encodeByte hstatus) s
    rw [exec_of_status hstatus, ht]
    exact nofun

/-! ## The pseudocode of R64, by the kind of the byte -/

theorem accept_of_realtime (hb : isRealtime b = true) (p : Parser) : accept b p = some (p, .message b) :=
  if_pos hb

theorem accept_of_epc (hn : epc b = some n) (p : Parser) :
    accept b p = some ({ p with activeMessage := b, pendingCount := n }, startOutput b n) := by
  obtain ⟨hstart, hrealtime⟩ := isNarrowStart_of_epc hn
  cases n <;> simp [accept, hstart, hrealtime, hn, PendingCount.toInt, acceptStep4, startOutput]

theorem accept_of_discard (hb : isData b) (hp : p.pendingCount = .zero ∨ p.pendingCount = .hold) :
    accept b p = some (p, .noMessage) := by
  obtain hp | hp := hp <;> simp [accept, isRealtime_of_data hb, hb, hp, PendingCount.toInt]

theorem accept_of_first (hb : isData b) (hp : p.pendingCount = .two) :
    accept b p = some ({ p with data0 := b, pendingCount := .one }, .noMessage) := by
  simp [accept, isRealtime_of_data hb, hb, hp, PendingCount.toInt, acceptStore, PendingCount.ofInt?, acceptStep4]

theorem accept_of_last (hb : isData b) (hp : p.pendingCount = .one) :
    accept b p = (epc p.activeMessage).map fun n =>
      ({ p with data1 := b, pendingCount := n }, .message p.activeMessage) := by
  simp [accept, isRealtime_of_data hb, hb, hp, PendingCount.toInt, acceptStore, PendingCount.ofInt?, acceptStep4]

theorem accept_of_transition (h : Transition p (.accept b) q o) : accept b p = some (q, o) := by
  cases h with
  | realtime hb => exact accept_of_realtime hb p
  | start hn => exact accept_of_epc hn p
  | discard hb hp => exact accept_of_discard hb hp
  | first hb hp => exact accept_of_first hb hp
  | last hb hp hn => rw [accept_of_last hb hp, hn, Option.map_some]

theorem exec_decodeByte (b : Byte) (s : State) : exec (decodeByte b) s = perform (.accept b) s := rfl

/-- An accepted byte refuses only as the last data byte of a message whose count is undefined. -/
theorem perform_accept_refused (h : perform (.accept b) s = .refused r) :
    r = .epcOutsideDomain ∧ isData b ∧ s.parser.pendingCount = .one ∧ epc s.parser.activeMessage = none := by
  obtain hdata | hrealtime | hstart := data_or_realtime_or_narrowStart b
  · rw [perform_accept_of_data hdata, dataByte_refused_iff] at h
    obtain ⟨hr, hone, hnone⟩ := h
    exact ⟨hr, hdata, hone, hnone⟩
  · exact nomatch (perform_accept_of_realtime hrealtime s).symm.trans h
  · obtain ⟨t, ht⟩ := startMessage_answers hstart s
    exact nomatch ht.symm.trans ((perform_accept_of_narrowStart hstart s).symm.trans h)

/-! ## What a transition writes and puts out -/

theorem Transition.data_slot (h : Transition p e q o) {slot : Fin 2} (hslot : q.getData slot ≠ p.getData slot) :
    (∃ b, e = .accept b ∧ isData b ∧ (slot.val : Int) = 2 - p.pendingCount.toInt ∧ q.getData slot = b) ∨
    (e = .reset ∧ q.getData slot = 0) := by
  cases h with
  | reset => exact .inr ⟨rfl, by fin_cases slot <;> rfl⟩
  | idle | realtime | discard => exact absurd rfl hslot
  | start => exact absurd (by fin_cases slot <;> rfl) hslot
  | first hb hp =>
    match slot with
    | 0 => exact .inl ⟨_, rfl, hb, by simp [hp, PendingCount.toInt], rfl⟩
    | 1 => exact absurd rfl hslot
  | last hb hp =>
    match slot with
    | 0 => exact absurd rfl hslot
    | 1 => exact .inl ⟨_, rfl, hb, by simp [hp, PendingCount.toInt], rfl⟩

theorem msgValid_startOutput (b : Byte) (n : PendingCount) :
    msgValid (startOutput b n) = true ↔ n = .zero ∨ n = .hold := by
  cases n <;> simp [startOutput, msgValid]

theorem Transition.msgValid_iff (h : Transition p (.accept b) q o) :
    msgValid o = true ↔
      isRealtime b = true ∨ epc b = some .zero ∨ epc b = some .hold ∨ (isData b ∧ p.pendingCount = .one) := by
  cases h with
  | realtime hb => exact iff_of_true rfl (.inl hb)
  | start hn =>
    have hstart := isNarrowStart_of_epc hn
    simp [msgValid_startOutput, hn, hstart.1, hstart.2, isData]
  | discard hb hp =>
    obtain hp | hp := hp <;>
      simp [msgValid, isRealtime_of_data hb, epc_eq_none_of_data _ hb, hp]
  | first hb hp => simp [msgValid, isRealtime_of_data hb, epc_eq_none_of_data _ hb, hp]
  | last hb hp => exact iff_of_true rfl (.inr (.inr (.inr ⟨hb, hp⟩)))

/-! ## The modes (R76) -/

theorem modeOf_of_count (hp : p.pendingCount = .one ∨ p.pendingCount = .two) : modeOf p = .collect := by
  obtain hp | hp := hp <;> simp [modeOf, hp]

/-- Under R19 a data byte stays in the mode: the collecting mode spans the counts 2 and 1 and every count it re-arms to. -/
theorem Transition.modeOf_of_data (h : Transition p (.accept b) q o) (hinv : Inv p) (hb : isData b) :
    modeOf q = modeOf p := by
  cases h with
  | realtime | discard => rfl
  | start hn => exact nomatch hn.symm.trans (epc_eq_none_of_data b hb)
  | first _ hp => rw [modeOf_of_count (p := p) (.inr hp), modeOf_of_count (.inl rfl)]
  | last _ hp hn =>
    rw [modeOf_of_count (p := p) (.inl hp), modeOf_of_count]
    exact (epc_one_or_two hinv hp).imp (Option.some.inj <| hn.symm.trans ·) (Option.some.inj <| hn.symm.trans ·)

theorem Transition.parser_of_realtime (h : Transition p (.accept b) q o) (hb : isRealtime b = true) : q = p := by
  cases h with
  | realtime | discard => rfl
  | start hn => exact nomatch hn.symm.trans (epc_eq_none_of_realtime b hb)
  | first hdata | last hdata => exact nomatch hb.symm.trans (isRealtime_of_data hdata)

/-- What is left by a byte with a count does not depend on what was there, but for the slots. -/
theorem Transition.of_epc (h : Transition p (.accept b) q o) (hn : epc b = some n) :
    q = { p with activeMessage := b, pendingCount := n } ∧ o = startOutput b n := by
  cases h with
  | start hn' =>
    obtain rfl := Option.some.inj (hn'.symm.trans hn)
    exact ⟨rfl, rfl⟩
  | realtime hb => exact nomatch hn.symm.trans (epc_eq_none_of_realtime b hb)
  | discard hb | first hb | last hb => exact nomatch hn.symm.trans (epc_eq_none_of_data b hb)

/-! ## The hold is left by the next start or by reset (R110) -/

theorem Transition.leaves_hold (h : Transition p e q o) (hp : p.pendingCount = .hold) (hq : q.pendingCount ≠ .hold) :
    e = .reset ∨ ∃ b, e = .accept b ∧ isNarrowStart b ∧ b ≠ 0xF0 := by
  cases h with
  | reset => exact .inl rfl
  | idle | realtime | discard => exact absurd hp hq
  | start hn =>
    refine .inr ⟨_, rfl, isNarrowStart_of_epc hn, ?_⟩
    rintro rfl
    exact hq (Option.some.inj (hn.symm.trans ((epc_eq_hold_iff 0xF0).mpr rfl)))
  | first _ htwo => exact nomatch hp.symm.trans htwo
  | last _ hone => exact nomatch hp.symm.trans hone

/-! ## Discarding a data byte (R69) -/

theorem dataByte_discards_iff :
    dataByte b s = .next (s.finish s.parser .noMessage) ↔
      s.parser.pendingCount = .zero ∨ s.parser.pendingCount = .hold := by
  constructor
  · intro h
    obtain ⟨hp, -⟩ | ⟨htwo, ht⟩ | ⟨-, _, -, ht⟩ := dataByte_cases h
    · exact hp
    · have hone : s.parser.pendingCount = .one := congrArg (fun t => t.parser.pendingCount) ht
      exact nomatch htwo.symm.trans hone
    · exact nomatch (congrArg State.output ht : Output.noMessage = .message _)
  · exact fun hp => dataByte_of_not_pending hp b

theorem controlInv_zero_iff_mem :
    ∀ am : Byte, ControlInv am .zero ↔ am ∈ [0x00#8, 0xF4#8, 0xF5#8, 0xF6#8, 0xF7#8] := by
  decide +kernel

end Sys2Proof.Machine

namespace Sys2Proof.Proofs

open Sys2Proof.Machine Sys2Proof.Safety

/-- Settles O17: a class of another format than D answers always, and a data byte refuses only at the lookup of an
undefined count. -/
theorem onlyAnUndefinedCountRefuses : Obligations.OnlyAnUndefinedCountRefuses := by
  intro i s r
  by_cases hf : i.format = .d
  · obtain ⟨b, rfl⟩ := format_eq_d_iff.mp hf
    simp [exec_data, dataByte_refused_iff]
  · rw [format_eq_d_iff] at hf
    exact iff_of_false (exec_not_refused (mt format_eq_d_iff.mp hf)) fun ⟨_, hdata, _⟩ => hf hdata

/-- Settles O36: where the meaning answers, its transition is the pseudocode's; where it refuses, the pseudocode looks the
same undefined count up. -/
theorem meaningsAreTheAcceptTransition : Obligations.MeaningsAreTheAcceptTransition := by
  intro b s
  rw [exec_decodeByte]
  cases h : perform (.accept b) s with
  | next t =>
    rw [accept_of_transition (transition_of_perform h), perform_finish h]
    rfl
  | refused r =>
    obtain ⟨rfl, hb, hp, hn⟩ := perform_accept_refused h
    rw [accept_of_last hb hp, hn, Option.map_none]
  | fault f => exact nomatch f

/-- Settles O37: each format is one of the three operations, whose cases say which registers they write. -/
theorem frameOfEachFormat : Obligations.FrameOfEachFormat := by
  intro i s t h
  have hinputs : t.inputs = s.inputs := by rw [exec_finish h, State.finish_inputs]
  refine ⟨hinputs, fun hf => ?realtime, fun hf => ?status, fun hf => ?data⟩
  case realtime =>
    rw [exec_of_realtime hf] at h
    exact realtimeReturn_parser h
  case status =>
    rw [exec_of_status hf] at h
    obtain ⟨_, -, rfl⟩ := startMessage_cases h
    exact ⟨rfl, rfl⟩
  case data =>
    obtain ⟨b, rfl⟩ := format_eq_d_iff.mp hf
    rw [exec_data] at h
    refine ⟨dataByte_activeMessage h, ?_⟩
    obtain ⟨hp, rfl⟩ | ⟨hp, rfl⟩ | ⟨hp, _, -, rfl⟩ := dataByte_cases h <;> simp [hp]

/-- Settles O35: a data byte is discarded where nothing is pending, and R19 leaves six control values of that kind. -/
theorem discardHappensInSixControlStates : Obligations.DiscardHappensInSixControlStates := by
  rintro b s ⟨hcontrol, -, -⟩
  have hdiscard := dataByte_discards_iff (b := b) (s := s)
  refine hdiscard.trans ?_
  cases hp : s.parser.pendingCount with
  | zero =>
    rw [hp, controlInv_zero_iff_mem] at hcontrol
    simpa using hcontrol
  | hold =>
    rw [hp, controlInv_hold_iff] at hcontrol
    simp [hcontrol]
  | one | two => simp

/-- Settles O39: a transition that changes a slot is the first or the last data byte of a message, or the reset. -/
theorem dataSlotsHaveTwoWriters : Obligations.DataSlotsHaveTwoWriters :=
  fun _ _ h _ hslot => (transition_of_step h).data_slot hslot

/-- Settles O40: each transition of an accepted byte is in one of the three situations or puts out nothing. -/
theorem outputIsSomeInThreeSituations : Obligations.OutputIsSomeInThreeSituations :=
  fun _ _ _ h => (transition_of_perform h).msgValid_iff

/-- Settles O41: a status byte sets the mode by its count, and data and realtime bytes keep it. -/
theorem modesFollowTheTransitionTable : Obligations.ModesFollowTheTransitionTable := by
  intro b s t hinv h
  have htransition := transition_of_perform h
  refine ⟨?realtime, ?sysex, ?resting, ?collecting, htransition.modeOf_of_data hinv⟩
  case realtime =>
    intro hb
    rw [htransition.parser_of_realtime hb]
  case sysex =>
    intro hb
    rw [(htransition.of_epc ((epc_eq_hold_iff b).mpr hb)).1]
    rfl
  case resting =>
    intro hlow hhigh
    rw [(htransition.of_epc ((epc_eq_zero_iff b).mpr ⟨hlow, hhigh⟩)).1]
    rfl
  case collecting =>
    rintro ⟨hstart, hrealtime⟩ hsysex hlow
    obtain ⟨n, hn⟩ := Option.isSome_iff_exists.mp (epc_isSome_of_start b hstart hrealtime)
    rw [(htransition.of_epc hn).1]
    cases n with
    | hold => exact absurd ((epc_eq_hold_iff b).mp hn) hsysex
    | zero => exact absurd ((epc_eq_zero_iff b).mp hn).1 (Nat.not_le.mpr hlow)
    | one | two => exact ⟨rfl, hn⟩

/-- Settles O44: only 0xF0 enters a hold, and only another start or the reset leaves it. -/
theorem sysexOpenRisesAndFallsAsSpecified : Obligations.SysexOpenRisesAndFallsAsSpecified := by
  intro s t hinv h
  rw [Bool.eq_false_iff, Bool.eq_false_iff, ne_eq, ne_eq, sysexOpen_iff, sysexOpen_iff]
  refine ⟨fun hs ht => ?rises, (transition_of_step h).leaves_hold⟩
  case rises =>
    rw [step_eq_perform] at h
    exact (perform_enters_hold (s := s.advance) hinv h hs ht).1

/-- Settles O46: the byte has a count, which with the byte determines all that is compared. -/
theorem statusByteResynchronises : Obligations.StatusByteResynchronises := by
  rintro b s u ⟨hstart, hrealtime⟩
  obtain ⟨n, hn⟩ := Option.isSome_iff_exists.mp (epc_isSome_of_start b hstart hrealtime)
  exact ⟨_, _, perform_accept_of_epc hn s, perform_accept_of_epc hn u, rfl, rfl, rfl⟩

end Sys2Proof.Proofs
end

section
/-! The classifier, the operands and the accessors: the kinds of byte and their counts (40 R58 to R62, 30 R48), the count as
integer, code and slot (10 R27, 41 R75), the ports and the decoded view (45 R103 to R110), and several parsers (60 R125). -/

namespace Sys2Proof.Machine

open Sys2Proof.Safety

variable {b c : Byte} {e : Event} {n : PendingCount} {s t : State} {p q : Parser} {o : Output}

/-! ## The kinds of byte and the counts -/

theorem epc_eq_one_iff :
    ∀ b : Byte, epc b = some .one ↔ 0xC0 ≤ b.toNat ∧ b.toNat ≤ 0xDF ∨ b.toNat = 0xF1 ∨ b.toNat = 0xF3 := by
  decide +kernel

theorem epc_eq_two_iff :
    ∀ b : Byte, epc b = some .two ↔
      0x80 ≤ b.toNat ∧ b.toNat ≤ 0xBF ∨ 0xE0 ≤ b.toNat ∧ b.toNat ≤ 0xEF ∨ b.toNat = 0xF2 := by
  decide +kernel

/-- R48: one byte more than the count, and no end to a SYSEX. -/
def lengthOfCount : PendingCount → MessageLength
  | .hold => .indefinite
  | .zero => .bytes 1
  | .one => .bytes 2
  | .two => .bytes 3

theorem messageLength_of_epc (hn : epc b = some n) : messageLength b = some (lengthOfCount n) := by
  obtain ⟨-, hrealtime⟩ := isNarrowStart_of_epc hn
  cases n <;> simp [messageLength, hrealtime, hn, lengthOfCount]

theorem messageLength_of_realtime (hb : isRealtime b = true) : messageLength b = some (.bytes 1) :=
  if_pos hb

theorem messageLength_of_data (hb : isData b) : messageLength b = none := by
  simp [messageLength, isRealtime_of_data hb, epc_eq_none_of_data b hb]

theorem isData_iff (b : Byte) : isData b ↔ b.toNat ≤ 0x7F := by
  rw [isData, Bool.eq_false_iff, ne_eq, isMessageStart_iff]
  omega

/-! ## The output ports (92 D1, D4) -/

theorem msgValid_eq_true_iff (o : Output) : msgValid o = true ↔ ∃ c, o = .message c ∧ msgCode o = c := by
  cases o <;> simp [msgValid, msgCode]

theorem msgCode_of_not_valid (ho : msgValid o = false) : msgCode o = 0x00 := by
  cases o with
  | message c => exact nomatch ho
  | quiet | noMessage => rfl

theorem toInt_eq_neg_one_iff (n : PendingCount) : n.toInt = -1 ↔ n = .hold := by
  cases n <;> simp [PendingCount.toInt]

/-- R110: under R19 the hold is open exactly while the last message-start byte is 0xF0. -/
theorem sysexOpen_iff_of_inv (hinv : Inv p) : sysexOpen p = true ↔ p.activeMessage = 0xF0 := by
  obtain ⟨hcontrol, -, -⟩ := hinv
  rw [sysexOpen_iff]
  constructor
  · intro hp
    rwa [hp, controlInv_hold_iff] at hcontrol
  · intro ham
    have hhold : epc p.activeMessage = some .hold := (epc_eq_hold_iff _).mpr ham
    have hne : p.activeMessage ≠ 0 := ne_zero_of_epc hhold
    obtain hn | ⟨-, htwo⟩ := epc_of_controlInv hcontrol hne
    · exact Option.some.inj (hn.symm.trans hhold)
    · exact nomatch htwo.symm.trans hhold

/-- R104: `active_message` is 0 or a message-start byte that is not realtime. -/
theorem activeMessage_of_inv (hinv : Inv p) :
    p.activeMessage = 0 ∨ 0x80 ≤ p.activeMessage.toNat ∧ p.activeMessage.toNat ≤ 0xF7 := by
  obtain ⟨⟨ham, -⟩ | ⟨hlow, hhigh, -⟩, -, -⟩ := hinv
  · exact .inl ham
  · exact .inr ⟨hlow, hhigh⟩

theorem msb_of_le (hb : b ≤ 0x7F#8) : b.msb = false :=
  (isMessageStart_eq_msb b).symm.trans (data_of_le hb)

/-! ## Returned codes and their decoded view (R109) -/

/-- Only a byte that has started a message, or a realtime byte, is ever returned. -/
theorem Transition.isMessageStart_of_message (h : Transition p e q (.message c)) : isMessageStart c = true := by
  generalize ho : Output.message c = o at h
  cases h with
  | reset | idle | discard | first => exact nomatch ho
  | realtime hb =>
    cases ho
    exact isMessageStart_of_realtime _ hb
  | @start _ n hn =>
    cases n with
    | hold | zero =>
      cases ho
      exact (isNarrowStart_of_epc hn).1
    | one | two => exact nomatch ho
  | last _ _ hn =>
    cases ho
    exact (isNarrowStart_of_epc hn).1

theorem decodedView_of_realtime (hc : isRealtime c = true) : decodedView c = .realtime (subField c) :=
  if_pos hc

theorem decodedView_of_systemCommon (hc : isSystemCommon c = true) : decodedView c = .systemCommon (subField c) := by
  have hrealtime : ¬ isRealtime c = true := fun hr => not_systemCommon_and_realtime c ⟨hc, hr⟩
  rw [decodedView, if_neg hrealtime, if_pos hc]

theorem decodedView_of_channel (hc : isChannel c = true) : decodedView c = .channel (opField c) (chField c) := by
  simp only [isChannel, Bool.and_eq_true, Bool.not_eq_true'] at hc
  obtain ⟨⟨-, hsystem⟩, hrealtime⟩ := hc
  simp [decodedView, hsystem, hrealtime]

theorem code_decodedView : ∀ c : Byte, isMessageStart c = true → (decodedView c).code = c := by
  decide +kernel

/-- A code with parameters is returned only at its last data byte (R70). -/
theorem Transition.of_completion (h : Transition p (.accept b) q (.message c)) (hn : epc c = some n)
    (hcount : n = .one ∨ n = .two) :
    isData b ∧ p.pendingCount = .one ∧ p.activeMessage = c ∧
      q = { p with activeMessage := c, data1 := b, pendingCount := n } := by
  generalize ho : Output.message c = o at h
  cases h with
  | discard | first => exact nomatch ho
  | realtime hb =>
    cases ho
    exact nomatch hn.symm.trans (epc_eq_none_of_realtime _ hb)
  | @start _ n' hn' =>
    cases n' with
    | hold | zero =>
      cases ho
      obtain rfl := Option.some.inj (hn.symm.trans hn')
      simp at hcount
    | one | two => exact nomatch ho
  | last hb hp hn' =>
    cases ho
    obtain rfl := Option.some.inj (hn.symm.trans hn')
    exact ⟨hb, hp, rfl, rfl⟩

theorem completedMessage_eq_some_iff {m : CompletedMessage} : completedMessage s = some m ↔
    ∃ c, s.output = .message c ∧ m.view = decodedView c ∧ m.data0 = s.parser.data0 ∧ m.data1 = s.parser.data1 := by
  obtain ⟨view, data0, data1⟩ := m
  cases ho : s.output with
  | quiet | noMessage => simp [completedMessage, ho]
  | message c =>
    simp only [completedMessage, ho, Option.some.injEq, CompletedMessage.mk.injEq, Output.message.injEq, exists_eq_left']
    exact and_congr eq_comm (and_congr eq_comm eq_comm)

/-! ## Several parsers (R125) -/

theorem stepInstance_cases {system after : List State} {k : Nat} (h : stepInstance system k = some after) :
    ∃ s t, system[k]? = some s ∧ step s = .next t ∧ after = system.set k t := by
  rw [stepInstance] at h
  cases hk : system[k]? with
  | none => simp [hk] at h
  | some s =>
    cases hs : step s with
    | next t =>
      simp only [hk, hs, Option.some.injEq] at h
      exact ⟨s, t, rfl, hs, h.symm⟩
    | refused r => simp [hk, hs] at h
    | fault f => exact nomatch f

end Sys2Proof.Machine

namespace Sys2Proof.Proofs

open Sys2Proof.Machine Sys2Proof.Safety

/-- Settles O7: the kinds are ranges that partition the bytes. -/
theorem everyByteIsExactlyOneKind : Obligations.EveryByteIsExactlyOneKind := by
  refine fun b => ⟨?one, isChannel_iff b⟩
  case one =>
    revert b
    decide +kernel

/-- Settles O9: each range of status bytes is the set of those with one count, and the length follows from the count. -/
theorem messageLengthFollowsFromTheStatusByte : Obligations.MessageLengthFollowsFromTheStatusByte := by
  intro b
  have hlength (n : PendingCount) (hn : epc b = some n) : epc b = some n ∧ messageLength b = some (lengthOfCount n) :=
    ⟨hn, messageLength_of_epc hn⟩
  refine ⟨fun h => ?two, fun h => ?one, fun h => ?zero, fun h => ?hold, fun h => ?realtime, fun h => ?data⟩
  case two => exact hlength .two ((epc_eq_two_iff b).mpr h)
  case one => exact hlength .one ((epc_eq_one_iff b).mpr h)
  case zero => exact hlength .zero ((epc_eq_zero_iff b).mpr h)
  case hold => exact hlength .hold ((epc_eq_hold_iff b).mpr (BitVec.eq_of_toNat_eq h))
  case realtime =>
    have hb := (isRealtime_iff b).mpr h
    exact ⟨epc_eq_none_of_realtime b hb, messageLength_of_realtime hb⟩
  case data =>
    have hb := (isData_iff b).mpr h
    exact ⟨epc_eq_none_of_data b hb, messageLength_of_data hb⟩

/-- Settles O34: only the counts 1 and 2 take a slot, and each is computed. -/
theorem slotIsTwoMinusPendingCount : Obligations.SlotIsTwoMinusPendingCount := by
  intro n
  cases n with
  | hold | zero => exact ⟨by decide, nofun⟩
  | one | two =>
    refine ⟨by decide, fun slot left h => ?_⟩
    cases h
    decide

/-- Settles O52: the four counts and the four codes, computed. -/
theorem storageCodeIsTheValueModulo4 : Obligations.StorageCodeIsTheValueModulo4 := by
  refine ⟨fun n => ?code, by decide⟩
  case code => cases n <;> decide

/-- Settles O49: the ports are the registers and the output; R19 gives the values they can show. -/
theorem outputPortsShowTheRegisters : Obligations.OutputPortsShowTheRegisters := by
  intro s
  have hopen : sysexOpen s.parser = true ↔ s.parser.pendingCount.toInt = -1 := by
    rw [sysexOpen_iff, toInt_eq_neg_one_iff]
  refine ⟨rfl, rfl, rfl, rfl, hopen, msgValid_eq_true_iff s.output, msgCode_of_not_valid, fun hinv => ?values⟩
  case values =>
    have ⟨_, h0, h1⟩ := hinv
    exact ⟨sysexOpen_iff_of_inv hinv, activeMessage_of_inv hinv, msb_of_le h0, msb_of_le h1⟩

/-- Settles O50: a step returns only what has started a message; the view chooses by the kind of the code, and no bit of
the code is lost. -/
theorem decodedViewChoosesTheFamilyAndLosesNothing : Obligations.DecodedViewChoosesTheFamilyAndLosesNothing := by
  refine ⟨?returned, fun c hc => ⟨decodedView_of_realtime, decodedView_of_systemCommon, decodedView_of_channel,
    code_decodedView c hc⟩⟩
  case returned =>
    intro s t c _ h hout
    have htransition := transition_of_step h
    rw [hout] at htransition
    exact htransition.isMessageStart_of_message

/-- Settles O56: of all transitions only the last data byte returns a code with parameters. -/
theorem completingStepFillsTheAccessors : Obligations.CompletingStepFillsTheAccessors := by
  intro b c n s t _ h hout hn hcount
  have htransition := transition_of_perform h
  rw [hout] at htransition
  exact htransition.of_completion hn hcount

/-- Settles O57: the completed message is built from the output; its view gives the code back, which is a message-start
byte. -/
theorem completedMessageIsTheViewAndTheSlots : Obligations.CompletedMessageIsTheViewAndTheSlots := by
  refine ⟨fun _ _ => completedMessage_eq_some_iff, ?recovered⟩
  case recovered =>
    intro s t m _ h hm
    obtain ⟨c, hout, hview, -, -⟩ := completedMessage_eq_some_iff.mp hm
    have htransition := transition_of_step h
    rw [hout] at htransition
    rw [hout, hview, code_decodedView c htransition.isMessageStart_of_message]

/-- Settles O53: the step replaces one entry of the list by its own next state. -/
theorem instancesShareNothing : Obligations.InstancesShareNothing := by
  intro system after k h
  obtain ⟨s, t, hk, hs, rfl⟩ := stepInstance_cases h
  refine ⟨fun j hj => List.getElem?_set_ne hj.symm, s, t, hk, hs, ?same⟩
  case same =>
    obtain ⟨hlt, -⟩ := List.getElem?_eq_some_iff.mp hk
    exact List.getElem?_set_self hlt

end Sys2Proof.Proofs
end
